-- ==== Sys2Proof/Word.lean ====
section
/-! DEFINITION. The word types of CORE (00_scope.md R8, R13): bytes, 32-bit register words, and the fixed-length byte
sequences lane, block and subkey. -/

namespace Sys2Proof

/-- 8 bits, values 0..255 (00_scope.md R13). -/
abbrev Byte := BitVec 8

/-- A 32-bit register or command word (00_scope.md R8, REG_WIDTH). -/
abbrev Word := BitVec 32

/-- A 6-bit word index of the register window (20_memory.md R63). -/
abbrev RegIndex := BitVec 6

/-- LANE_BYTES = 4 bytes (00_scope.md R8). -/
abbrev Lane := Vector Byte 4

/-- BLOCK_BYTES = KEY_BYTES = 16 bytes (00_scope.md R8): the type of DATA and of KEY. -/
abbrev Block := Vector Byte 16

/-- SUBKEY_BYTES = 5 bytes (00_scope.md R8, R9). -/
abbrev Subkey := Vector Byte 5

end Sys2Proof
end

