-- ==== Sys2Proof/Config.lean ====
section
/-! DEFINITION. What an implementation fixes and the spec leaves open: the configuration record CFG (00_scope.md R10,
R11), the free values of `draw()` and of the latency (R12, R16), and the platform parameters (20_memory.md R63, R68;
60_exceptions.md R241). The free constants have no body, so no proof can see a value of theirs. -/

namespace Sys2Proof

/-- CFG of 00_scope.md R10 together with WF(CFG) of R11: a value of this type IS a well-formed configuration, since
each substitution table is a bijection of the bytes and each permutation table a bijection of its positions. The
positions here count from 0, the spec's from 1: position i of the spec is i - 1 here. `CfgTables` is the record as
the spec writes it, and `buildCfg` (Machine/Build.lean) is the only way from one to the other. -/
structure Cfg where
  /-- S1 (10_state.md R21); its inverse table is `s1.symm`, and so for S2 to S4. -/
  s1 : Equiv.Perm Byte
  s2 : Equiv.Perm Byte
  s3 : Equiv.Perm Byte
  s4 : Equiv.Perm Byte
  /-- P_OUTER (10_state.md R22). -/
  pOuter : Equiv.Perm (Fin 16)
  /-- P_INNER (10_state.md R23). -/
  pInner : Equiv.Perm (Fin 32)
  /-- RC (10_state.md R24); any byte values. -/
  rc : Fin 16 → Byte
deriving Inhabited

/-- The configuration record as raw tables, entries as DOC writes them: P_OUTER and P_INNER hold values from 1
(00_scope.md R10; 10_state.md R22, R23). -/
structure CfgTables where
  s1 : List Byte
  s2 : List Byte
  s3 : List Byte
  s4 : List Byte
  pOuter : List Nat
  pInner : List Nat
  rc : List Byte
deriving DecidableEq, Repr

/-- The configuration this CORE was built with: OPEN, a parameter of the model (00_scope.md R10, D7; log 1). -/
opaque Config.cfg : Cfg

/-- The free values of `draw()` (00_scope.md R16), by the index of the draw. DESIGN CHOICE, unsafe: that a value depends on
its index alone, and so on nothing of KEY, DATA or the command, is the model's; the spec puts a draw under no law (log 3). -/
opaque Config.draw : Nat → Word

/-- The latency of an accepted command, by the index of the draw: the number of cycles between the acceptance and the
cycle of its completion, finite and not fixed by the spec (00_scope.md R12, 70_reset_and_hazards.md R275). DESIGN CHOICE,
unsafe: that it depends on its index alone, and not on the command, KEY or DATA, is the model's (log 2). -/
opaque Config.latency : Nat → Nat

/-- CORE_BASE, the window's base address on the host bus (20_memory.md R68; log 13). -/
opaque Config.coreBase : Nat

/-- CORE_IRQ_LINE, the host's interrupt number of IRQ (60_exceptions.md R241; log 13). -/
opaque Config.coreIrqLine : Nat

/-- BRIDGE_SUBWORD: the word index, if any, to which a byte-addressed bridge takes an offset that is no multiple of 4
(20_memory.md R63, I16; log 13). -/
opaque Config.bridgeSubword : Nat → Option RegIndex

end Sys2Proof
end

