-- ==== Sys2Proof/Syntax.lean ====
section
/-! DEFINITION. The syntax: the nine commands of the opcode table (30_encoding.md R82, R85), the assembler's raw form of
them (R89), and the operations of a host program (R90, R91; 44_host_driver.md R207; 70_reset_and_hazards.md R260). -/

namespace Sys2Proof

/-- The command field FN (30_encoding.md R81, R84): FN = 0 selects F1 and FN = 3 selects F4. -/
inductive LaneFn where
  | f1
  | f2
  | f3
  | f4
deriving DecidableEq, Repr

/-- A round, held as the command field RIDX = r - 1 (30_encoding.md R81, R83): every value is legal, r is in 1..16. -/
abbrev RoundIdx := Fin 16

/-- The round index r = RIDX + 1, in 1..16 (30_encoding.md R83). -/
def RoundIdx.number (r : RoundIdx) : Nat := r.val + 1

/-- The command field LANE = k, 0..3 (30_encoding.md R81, R84). -/
abbrev LaneIdx := Fin 4

/-- The commands, one constructor for each row of the opcode table (30_encoding.md R82). -/
inductive Instr where
  /-- NOP, 43_control_commands.md R192. -/
  | nop
  /-- ENC, 42_block_core.md R167. -/
  | enc
  /-- DEC, 42_block_core.md R168. -/
  | dec
  /-- ENCR r, 42_block_core.md R169. -/
  | encr (r : RoundIdx)
  /-- DECR r, 42_block_core.md R170. -/
  | decr (r : RoundIdx)
  /-- SUBKEY r, 40_key_schedule.md R106. -/
  | subkey (r : RoundIdx)
  /-- LANEF Fn, Lk, r, 41_round_functions.md R135. -/
  | lanef (fn : LaneFn) (k : LaneIdx) (r : RoundIdx)
  /-- LANEFI Fn, Lk, r, 41_round_functions.md R136. -/
  | lanefi (fn : LaneFn) (k : LaneIdx) (r : RoundIdx)
  /-- CLEAR, 43_control_commands.md R193. -/
  | clear
deriving DecidableEq, Repr

/-- A command as the assembler reads it (30_encoding.md R89): the operands are the numbers written, not yet checked
against their ranges (r in 1..16, n in 1..4, k in 0..3). -/
inductive AsmCmd where
  | nop
  | enc
  | dec
  | encr (r : Nat)
  | decr (r : Nat)
  | subkey (r : Nat)
  | lanef (n k r : Nat)
  | lanefi (n k r : Nat)
  | clear
deriving DecidableEq, Repr

/-- The direction argument of the driver's entry point (44_host_driver.md R201). -/
inductive Direction where
  | encrypt
  | decrypt
deriving DecidableEq, Repr

/-- The reasons of the driver's Failure(reason) (44_host_driver.md R201 to R207). -/
inductive DriverFailure where
  /-- The key is not exactly 16 bytes (R202). -/
  | keyLength
  /-- The decrypt input's length is 0 or no multiple of 16 (R206). -/
  | inputLength
  /-- The decoded pad_len exceeds the buffer's length (R204). -/
  | padLength
  /-- STATUS.ERR was nonzero after a block command; the code is that ERR (R207). -/
  | deviceError (code : BitVec 4)
deriving DecidableEq, Repr

/-- One operation of the host (10_state.md R20). All but `check`, `callEnter` and `callLeave`, which are steps of the
driver's own code, act on CORE's port or its RST pin. -/
inductive HostOp where
  /-- `RD REG -> name`: RegRead(idx), the value bound to name (30_encoding.md R90). -/
  | rd (idx : RegIndex) (name : String)
  /-- `WR REG, imm32`: RegWrite(idx, w) (30_encoding.md R90). -/
  | wr (idx : RegIndex) (w : Word)
  /-- `WAIT`: read STATUS into `s`, again while s[0] = 1 (30_encoding.md R91). -/
  | wait
  /-- Wait until the host observes IRQ (20_memory.md R71). -/
  | waitIrq
  /-- The driver's test on its last `s`: if s[7:4] is not 0, stop with Failure(DeviceError(s[7:4]))
  (44_host_driver.md R207). -/
  | check
  /-- A call of the driver's entry point begins, refused at once or not (44_host_driver.md R201, R202, R206; log 12). -/
  | callEnter (refusal : Option DriverFailure)
  /-- The call returns: its bytes, or the Failure it stopped with (44_host_driver.md R201; log 12). -/
  | callLeave (dir : Direction)
  /-- Drive the reset input RST to a level (70_reset_and_hazards.md R260). -/
  | setRst (level : Bool)
deriving DecidableEq, Repr

/-- A value RegRead returned to the host, bound to a name of the host program (30_encoding.md R90). -/
structure Reading where
  name : String
  idx : RegIndex
  value : Word
deriving DecidableEq, Repr

end Sys2Proof
end

