-- ==== Sys2Proof/Decode.lean ====
section
/-! DEFINITION. The decoder of command words, total on all 2^32 words and rejecting by name (30_encoding.md R85, R86),
and the encoder (R81, R82), both over the field layout of R81. -/

namespace Sys2Proof

/-- Why a word is ILLEGAL (30_encoding.md R86); the first reason that holds, in this order (log 14). -/
inductive DecodeError where
  /-- OP is 0x8 to 0xF. -/
  | reservedOpcode
  /-- Bit 11 or one of the bits 31:14 is 1. -/
  | reservedBits
  /-- A field the operation does not use is nonzero. -/
  | unusedField
deriving DecidableEq, Repr

/-- The fields of a command word (30_encoding.md R81). -/
def fieldOp (w : Word) : BitVec 4 := w.extractLsb' 0 4
def fieldRidx (w : Word) : BitVec 4 := w.extractLsb' 4 4
def fieldFn (w : Word) : BitVec 2 := w.extractLsb' 8 2
def fieldInv (w : Word) : BitVec 1 := w.extractLsb' 10 1
def fieldReserved11 (w : Word) : BitVec 1 := w.extractLsb' 11 1
def fieldLane (w : Word) : BitVec 2 := w.extractLsb' 12 2
def fieldReserved31 (w : Word) : BitVec 18 := w.extractLsb' 14 18

/-- The round operand, as RIDX (30_encoding.md R83). -/
def roundOfField (b : BitVec 4) : RoundIdx := b.toFin

/-- FN selects F(FN+1) (30_encoding.md R84). -/
def fnOfField (b : BitVec 2) : LaneFn :=
  if b = 0#2 then .f1 else if b = 1#2 then .f2 else if b = 2#2 then .f3 else .f4

/-- The lane operand (30_encoding.md R84). -/
def laneOfField (b : BitVec 2) : LaneIdx := b.toFin

/-- `ok i` when the bits the operation leaves unused are all 0, else the reason of R86. -/
def strict (w : Word) (unused : Bool) (i : Instr) : Except DecodeError Instr :=
  if fieldReserved31 w ≠ 0#18 ∨ fieldReserved11 w ≠ 0#1 then .error .reservedBits
  else if unused then .error .unusedField
  else .ok i

/-- A command with no operand field: bits 31:4 must be 0 (30_encoding.md R85). -/
def strictPlain (w : Word) (i : Instr) : Except DecodeError Instr :=
  strict w (fieldRidx w ≠ 0#4 || fieldFn w ≠ 0#2 || fieldInv w ≠ 0#1 || fieldLane w ≠ 0#2) i

/-- A command with the operand RIDX alone: bits 31:8 must be 0 (30_encoding.md R85). -/
def strictRound (w : Word) (i : Instr) : Except DecodeError Instr :=
  strict w (fieldFn w ≠ 0#2 || fieldInv w ≠ 0#1 || fieldLane w ≠ 0#2) i

/-- The decoder (30_encoding.md R85): `.error` is ILLEGAL, with the reason of R86. -/
def decode (w : Word) : Except DecodeError Instr :=
  let r := roundOfField (fieldRidx w)
  match (fieldOp w).toNat with
  | 0 => strictPlain w .nop
  | 1 => strictPlain w .enc
  | 2 => strictPlain w .dec
  | 3 => strictRound w (.encr r)
  | 4 => strictRound w (.decr r)
  | 5 => strictRound w (.subkey r)
  | 6 =>
    if fieldInv w = 0#1 then strict w false (.lanef (fnOfField (fieldFn w)) (laneOfField (fieldLane w)) r)
    else strict w false (.lanefi (fnOfField (fieldFn w)) (laneOfField (fieldLane w)) r)
  | 7 => strictPlain w .clear
  | _ => .error .reservedOpcode

/-- The FN field of a lane function (30_encoding.md R84). -/
def LaneFn.field : LaneFn → BitVec 2
  | .f1 => 0#2
  | .f2 => 1#2
  | .f3 => 2#2
  | .f4 => 3#2

/-- word = OP | (RIDX << 4) | (FN << 8) | (INV << 10) | (LANE << 12) (30_encoding.md R81). -/
def packWord (op : BitVec 4) (ridx : BitVec 4) (fn : BitVec 2) (inv : BitVec 1) (lane : BitVec 2) : Word :=
  op.setWidth 32 ||| (ridx.setWidth 32 <<< 4) ||| (fn.setWidth 32 <<< 8) ||| (inv.setWidth 32 <<< 10) |||
    (lane.setWidth 32 <<< 12)

/-- The command word of an instruction (30_encoding.md R81, R82). -/
def encode : Instr → Word
  | .nop => packWord 0x0#4 0#4 0#2 0#1 0#2
  | .enc => packWord 0x1#4 0#4 0#2 0#1 0#2
  | .dec => packWord 0x2#4 0#4 0#2 0#1 0#2
  | .encr r => packWord 0x3#4 (BitVec.ofFin r) 0#2 0#1 0#2
  | .decr r => packWord 0x4#4 (BitVec.ofFin r) 0#2 0#1 0#2
  | .subkey r => packWord 0x5#4 (BitVec.ofFin r) 0#2 0#1 0#2
  | .lanef fn k r => packWord 0x6#4 (BitVec.ofFin r) fn.field 0#1 (BitVec.ofFin k)
  | .lanefi fn k r => packWord 0x6#4 (BitVec.ofFin r) fn.field 1#1 (BitVec.ofFin k)
  | .clear => packWord 0x7#4 0#4 0#2 0#1 0#2

/-- The instruction of the bits w, numbered as spec/opcode_table.json numbers them: one 32-bit word, bits past nbits 0. -/
def decodeTableWord (nbits w : Nat) : Option Instr :=
  (decode (BitVec.ofNat 32 (w % 2 ^ nbits))).toOption

end Sys2Proof
end

