-- ==== Sys2Proof/Machine/State.lean ====
section
/-! DEFINITION. The state of CORE (10_state.md R45) and of its environment, the reasons a step can stop, and reset. -/

namespace Sys2Proof.Machine

/-- PHASE (10_state.md R40): idle, or busy with the accepted command word PEND. -/
inductive Phase where
  | idle
  | busy (pend : Word)
deriving DecidableEq, Repr

/-- The reasons the machine stops. The spec gives CORE none (60_exceptions.md R230): its errors are recorded in ERR. -/
inductive Fault where
  /-- Raised by the completion step alone, when PEND decodes to ILLEGAL. No rule of the spec reaches such a state
  (43_control_commands.md R190 accepts only legal words), and none says what it does. Safe (log 7). -/
  | pendIllegal (reason : DecodeError)
deriving DecidableEq, Repr

/-- The reasons an instruction has no meaning. -/
inductive Refusal where
  /-- Raised by an arm of `exec` whose instruction has no meaning yet; no arm of this model does. Safe. -/
  | notModelled (mnemonic : String)
deriving DecidableEq, Repr

/-- The fields `ieDone` to `sklo` are the record of 10_state.md R45; the others are the environment (the RST pin and
the host) and the model's own bookkeeping of time and of free values. -/
structure State where
  /-- CTRL.IE_DONE (10_state.md R28). -/
  ieDone : Bool
  /-- CTRL.IE_ERR (10_state.md R28). -/
  ieErr : Bool
  /-- PHASE; STATUS.BUSY = 1 exactly when it is busy (10_state.md R40). -/
  phase : Phase
  /-- STATUS.DONE (10_state.md R29). -/
  done : Bool
  /-- STATUS.OVF (10_state.md R29). -/
  ovf : Bool
  /-- STATUS.ERR (10_state.md R29; 60_exceptions.md R231). -/
  err : BitVec 4
  /-- STATUS.KEYMASK (10_state.md R31). -/
  keyMask : BitVec 4
  /-- STATUS.DATAMASK (10_state.md R31). -/
  dataMask : BitVec 4
  /-- KEY[0..15] (10_state.md R33). -/
  key : Block
  /-- DATA[0..15] (10_state.md R35). -/
  data : Block
  /-- SKHI (10_state.md R36). -/
  skhi : Word
  /-- SKLO (10_state.md R37). -/
  sklo : Word
  /-- The level of the input RST (70_reset_and_hazards.md R260). -/
  rst : Bool
  /-- The model's own: cycles left before the completion of the accepted command fires (log 2). -/
  lat : Nat
  /-- The model's own: the index of the next free value (log 3). -/
  draws : Nat
  /-- The host's operations not yet performed, in the order it issued them (20_memory.md R69). -/
  host : List HostOp
  /-- What RegRead returned to the host, the newest first (20_memory.md R64; 30_encoding.md R90). -/
  reads : List Reading
  /-- The driver's own: the Failure its current call has stopped with, if any (44_host_driver.md R201, R207; log 12). -/
  failure : Option DriverFailure
  /-- The driver's own: how many values `reads` held when its current call began (44_host_driver.md R201; log 12). -/
  callMark : Nat
  /-- What the driver's last finished call returned (44_host_driver.md R201; log 12). -/
  result : Option (Except DriverFailure (List Byte))
deriving DecidableEq, Repr

/-- The all-zero 16 bytes. -/
def zeroBlock : Block := Vector.replicate 16 0#8

/-- The machine right after reset: every field of R45 at its reset value (10_state.md R45; 70_reset_and_hazards.md
R260), RST released, and an environment that has asked for nothing yet (log 10). -/
def State.reset : State where
  ieDone := false
  ieErr := false
  phase := .idle
  done := false
  ovf := false
  err := 0#4
  keyMask := 0#4
  dataMask := 0#4
  key := zeroBlock
  data := zeroBlock
  skhi := 0#32
  sklo := 0#32
  rst := false
  lat := 0
  draws := 0
  host := []
  reads := []
  failure := none
  callMark := 0
  result := none

end Sys2Proof.Machine
end

