-- ==== Sys2Proof/Machine/Ops.lean ====
section
/-! DEFINITION. The shared operations: conversions between bytes and integers (00_scope.md R14, 20_memory.md R61),
rotations (00_scope.md R15), raising an error and the acknowledge that undoes it (60_exceptions.md R236, R244), reset
(70_reset_and_hazards.md R260), and the two steps of every command, issue and completion (43_control_commands.md R190,
R191). CORE has no memory (20_memory.md R60), so there is no memory operation. -/

namespace Sys2Proof.Machine

/-- BE(b), the big-endian integer of a byte sequence of any length (00_scope.md R14); BE24 and BE16 are it on 3 and 2
bytes. -/
def be (bs : List Byte) : Nat := bs.foldl (fun acc b => acc * 256 + b.toNat) 0

/-- BE32 of four bytes: byte 0 is bits 31:24 and byte 3 bits 7:0 (00_scope.md R14; 20_memory.md R61, R62). -/
def be32 (l : Lane) : Word := l[0] ++ l[1] ++ l[2] ++ l[3]

/-- BYTES_4(w), the inverse of BE32 (00_scope.md R14; 10_state.md R33). -/
def bytes4 (w : Word) : Lane :=
  #v[w.extractLsb' 24 8, w.extractLsb' 16 8, w.extractLsb' 8 8, w.extractLsb' 0 8]

/-- rotl_bytes(B, n): C[i] = B[(i + n) mod L] (00_scope.md R15). -/
def rotlBytes {len : Nat} (n : Nat) (b : Vector Byte len) : Vector Byte len :=
  Vector.ofFn fun i => b[(i.val + n) % len]'(Nat.mod_lt _ (Nat.zero_lt_of_lt i.isLt))

/-- rotr_bytes(B, n) = rotl_bytes(B, L - (n mod L)) (00_scope.md R15). -/
def rotrBytes {len : Nat} (n : Nat) (b : Vector Byte len) : Vector Byte len := rotlBytes (len - n % len) b

/-- rotr32(w, n) (00_scope.md R15). -/
def rotr32 (w : Word) (n : Nat) : Word :=
  if n % 32 = 0 then w else (w >>> (n % 32)) ||| (w <<< (32 - n % 32))

/-- rotl32(w, n) = rotr32(w, 32 - (n mod 32)) (00_scope.md R15). -/
def rotl32 (w : Word) (n : Nat) : Word := rotr32 w (32 - n % 32)

/-- The error codes of STATUS.ERR (60_exceptions.md R231). -/
inductive ErrorCode where
  | illegalCmd
  | keyIncomplete
  | dataIncomplete
  | busy
  | access
deriving DecidableEq, Repr

/-- The value ERR records for an error (60_exceptions.md R231). -/
def errorValue : ErrorCode → BitVec 4
  | .illegalCmd => 1#4
  | .keyIncomplete => 2#4
  | .dataIncomplete => 3#4
  | .busy => 4#4
  | .access => 5#4

/-- `raise Error(code)`, CORE's whole exception entry: ERR keeps the first error and OVF records a later one; nothing
is saved and no mode changes (60_exceptions.md R236, R243). -/
def raiseError (code : ErrorCode) (s : State) : State :=
  if s.err = 0#4 then { s with err := errorValue code } else { s with ovf := true }

/-- The STATUS write action, with which the host acknowledges (10_state.md R30; 60_exceptions.md R244). -/
def acknowledge (w : Word) (s : State) : State :=
  { s with
    done := if w.getLsbD 1 then false else s.done
    err := if w.getLsbD 2 then 0#4 else s.err
    ovf := if w.getLsbD 2 then false else s.ovf }

/-- Every field of R45 at its reset value, which abandons a command in progress; CFG and the environment stay
(70_reset_and_hazards.md R260, R261, R262; log 8). -/
def resetCore (s : State) : State :=
  { State.reset with
    rst := s.rst
    draws := s.draws
    host := s.host
    reads := s.reads
    failure := s.failure
    callMark := s.callMark
    result := s.result }

/-- A mask with all four words written (10_state.md R31). -/
def maskFull (m : BitVec 4) : Bool := m = 0b1111#4

/-- Acceptance: PHASE <- BUSY(w), DONE <- 0; the latency is a free value (43_control_commands.md R190; 00_scope.md R12),
a function of the index `draws` alone by the model's choice (log 2). -/
def accept (w : Word) (s : State) : State :=
  { s with
    phase := .busy w
    done := false
    lat := Config.latency s.draws
    draws := s.draws + 1 }

/-- The checks after decoding and the acceptance, for the legal word w of a command that needs what the flags say
(43_control_commands.md R190; 60_exceptions.md R235, R237). BUSY and ILLEGAL_CMD come before: `issueWord`. -/
def issue (needsKey needsData : Bool) (w : Word) (s : State) : State :=
  if needsKey && !maskFull s.keyMask then raiseError .keyIncomplete s
  else if needsData && !maskFull s.dataMask then raiseError .dataIncomplete s
  else accept w s

/-- complete(w): EFFECT, PHASE <- IDLE, DONE <- 1, in one atomic step (43_control_commands.md R191). -/
def complete (effect : State → State) (s : State) : State :=
  { effect s with phase := .idle, done := true }

/-- The meaning of a command, whose two atomic steps PHASE tells apart: idle, the issue of its word by the host's CMD
write; busy, its completion (43_control_commands.md R190, R191; log 6). -/
def command (needsKey needsData : Bool) (i : Instr) (effect : State → State) (s : State) :
    Host.Outcome State Fault Refusal :=
  match s.phase with
  | .idle => .next (issue needsKey needsData (encode i) s)
  | .busy _ => .next (complete effect s)

end Sys2Proof.Machine
end

