-- ==== Sys2Proof/Machine/Operands.lean ====
section
/-! DEFINITION. Operand assembly: lanes of a block (00_scope.md R19; 41_round_functions.md R120), the key group and byte
rotation a round selects (40_key_schedule.md R101, R102), and the words of a 16-byte register (20_memory.md R61). -/

namespace Sys2Proof.Machine

/-- LANE_k(B) = B[4k..4k+3] (41_round_functions.md R120). -/
def laneOf (b : Block) (k : LaneIdx) : Lane := Vector.ofFn fun i => b[4 * k.val + i.val]

/-- B with the bytes 4k..4k+3 replaced by a lane. -/
def setLane (b : Block) (k : LaneIdx) (l : Lane) : Block :=
  Vector.ofFn fun i => if i.val / 4 = k.val then l[i.val % 4]'(Nat.mod_lt _ (by decide)) else b[i.val]

/-- l0 ++ l1 ++ l2 ++ l3, the block of four lanes (00_scope.md R13). -/
def joinLanes (l0 l1 l2 l3 : Lane) : Block :=
  #v[l0[0], l0[1], l0[2], l0[3], l1[0], l1[1], l1[2], l1[3], l2[0], l2[1], l2[2], l2[3], l3[0], l3[1], l3[2], l3[3]]

/-- The register word k of a 16-byte register: BE32(bytes 4k..4k+3) (20_memory.md R61). -/
def wordOf (b : Block) (k : LaneIdx) : Word := be32 (laneOf b k)

/-- A 16-byte register after a write of its word k (10_state.md R33, R35). -/
def setWord (b : Block) (k : LaneIdx) (w : Word) : Block := setLane b k (bytes4 w)

/-- g = (r - 1) mod 4 (40_key_schedule.md R101). -/
def keyGroup (r : RoundIdx) : LaneIdx := ⟨(r.number - 1) % 4, Nat.mod_lt _ (by decide)⟩

/-- n = (r - 1) / 4 (40_key_schedule.md R102). -/
def keyRotation (r : RoundIdx) : Nat := (r.number - 1) / 4

end Sys2Proof.Machine
end

