-- ==== Sys2Proof/Machine/KeySchedule.lean ====
section
/-! DEFINITION. The key-schedule generator (40_key_schedule.md) and the command SUBKEY. -/

namespace Sys2Proof.Machine

/-- SUBKEY_OF(K, r): RC[r-1], then key group g rotated left by n bytes (40_key_schedule.md R100 to R103). -/
def subkeyOf (c : Cfg) (k : Block) (r : RoundIdx) : Subkey :=
  let gr := rotlBytes (keyRotation r) (laneOf k (keyGroup r))
  #v[c.rc r, gr[0], gr[1], gr[2], gr[3]]

/-- ROT_OF(sk) = (BE24(sk[0..2]) * BE16(sk[3..4])) mod 32, the product exact (41_round_functions.md R124). -/
def rotOf (sk : Subkey) : Nat := (be [sk[0], sk[1], sk[2]] * be [sk[3], sk[4]]) % 32

/-- SKHI of a subkey: RIDX at 19:16, ROT at 12:8, SK0 at 7:0, the rest 0 (40_key_schedule.md R106; 10_state.md R36). -/
def skhiOf (r : RoundIdx) (sk : Subkey) : Word :=
  (BitVec.ofFin r ++ 0#3 ++ BitVec.ofNat 5 (rotOf sk) ++ sk[0] : BitVec 20).setWidth 32

/-- SKLO of a subkey: BE32(sk[1..4]) (40_key_schedule.md R106; 10_state.md R37). -/
def skloOf (sk : Subkey) : Word := be32 #v[sk[1], sk[2], sk[3], sk[4]]

/-- The effect of SUBKEY r at completion, under any configuration (40_key_schedule.md R106). -/
def subkeyEffect (c : Cfg) (r : RoundIdx) (s : State) : State :=
  { s with skhi := skhiOf r (subkeyOf c s.key r), sklo := skloOf (subkeyOf c s.key r) }

/-- SUBKEY r: needs the key, not the block (40_key_schedule.md R106). -/
def execSubkey (r : RoundIdx) (s : State) : Host.Outcome State Fault Refusal :=
  command true false (.subkey r) (subkeyEffect Config.cfg r) s

end Sys2Proof.Machine
end

