-- ==== Sys2Proof/Machine/RoundFunctions.lean ====
section
/-! DEFINITION. The round-function engine (41_round_functions.md): the substitution layer, the permutations, F1 to F4 and
their inverses, and the commands LANEF and LANEFI. -/

namespace Sys2Proof.Machine

/-- SUB(l): byte i through table S(i+1) (41_round_functions.md R121). -/
def sub (c : Cfg) (l : Lane) : Lane := #v[c.s1 l[0], c.s2 l[1], c.s3 l[2], c.s4 l[3]]

/-- SUB_inv(l) (41_round_functions.md R121). -/
def subInv (c : Cfg) (l : Lane) : Lane := #v[c.s1.symm l[0], c.s2.symm l[1], c.s3.symm l[2], c.s4.symm l[3]]

/-- PIN(l): output bit position i takes input position P_INNER[i]; position 1 is the most significant bit of the lane
word (41_round_functions.md R122). -/
def pin (c : Cfg) (l : Lane) : Lane :=
  bytes4 (BitVec.ofFnBE fun i => (be32 l).getMsbD (c.pInner i).val)

/-- PIN_inv(l): output position P_INNER[i] takes input position i (41_round_functions.md R122). -/
def pinInv (c : Cfg) (l : Lane) : Lane :=
  bytes4 (BitVec.ofFnBE fun j => (be32 l).getMsbD (c.pInner.symm j).val)

/-- POUT(B): C[i-1] <- B[P_OUTER[i] - 1] (41_round_functions.md R123). -/
def pout (c : Cfg) (b : Block) : Block := Vector.ofFn fun i => b[c.pOuter i]

/-- POUT_inv(B): C[P_OUTER[i] - 1] <- B[i-1] (41_round_functions.md R123). -/
def poutInv (c : Cfg) (b : Block) : Block := Vector.ofFn fun j => b[c.pOuter.symm j]

/-- A lane XORed with the subkey bytes 1..4 (41_round_functions.md R129). -/
def xorKey (l : Lane) (sk : Subkey) : Lane := #v[l[0] ^^^ sk[1], l[1] ^^^ sk[2], l[2] ^^^ sk[3], l[3] ^^^ sk[4]]

/-- F1: substitute, then rotate right by ROT_OF(sk) (41_round_functions.md R125). -/
def f1 (c : Cfg) (l : Lane) (sk : Subkey) : Lane := bytes4 (rotr32 (be32 (sub c l)) (rotOf sk))

/-- F1_inv: rotate left, then inverse-substitute (41_round_functions.md R126). -/
def f1Inv (c : Cfg) (l : Lane) (sk : Subkey) : Lane := subInv c (bytes4 (rotl32 (be32 l) (rotOf sk)))

/-- F2: the bit permutation, sk ignored (41_round_functions.md R127). -/
def f2 (c : Cfg) (l : Lane) (_sk : Subkey) : Lane := pin c l

/-- F2_inv (41_round_functions.md R128). -/
def f2Inv (c : Cfg) (l : Lane) (_sk : Subkey) : Lane := pinInv c l

/-- F3: XOR with sk[1..4], then substitute (41_round_functions.md R129). -/
def f3 (c : Cfg) (l : Lane) (sk : Subkey) : Lane := sub c (xorKey l sk)

/-- F3_inv: inverse-substitute, then XOR (41_round_functions.md R130). -/
def f3Inv (c : Cfg) (l : Lane) (sk : Subkey) : Lane := xorKey (subInv c l) sk

/-- F4: substitute, sk ignored (41_round_functions.md R131). -/
def f4 (c : Cfg) (l : Lane) (_sk : Subkey) : Lane := sub c l

/-- F4_inv (41_round_functions.md R132). -/
def f4Inv (c : Cfg) (l : Lane) (_sk : Subkey) : Lane := subInv c l

/-- FWD, indexed by FN (41_round_functions.md R134). -/
def fwd (c : Cfg) : LaneFn → Lane → Subkey → Lane
  | .f1 => f1 c
  | .f2 => f2 c
  | .f3 => f3 c
  | .f4 => f4 c

/-- INVF, indexed by FN (41_round_functions.md R134). -/
def invf (c : Cfg) : LaneFn → Lane → Subkey → Lane
  | .f1 => f1Inv c
  | .f2 => f2Inv c
  | .f3 => f3Inv c
  | .f4 => f4Inv c

/-- The effect of LANEF Fn, Lk, r: lane k <- FWD[fn](lane k, SUBKEY_OF(KEY, r)) (41_round_functions.md R135). -/
def lanefEffect (c : Cfg) (fn : LaneFn) (k : LaneIdx) (r : RoundIdx) (s : State) : State :=
  { s with data := setLane s.data k (fwd c fn (laneOf s.data k) (subkeyOf c s.key r)) }

/-- The effect of LANEFI Fn, Lk, r: lane k <- INVF[fn](lane k, SUBKEY_OF(KEY, r)) (41_round_functions.md R136). -/
def lanefiEffect (c : Cfg) (fn : LaneFn) (k : LaneIdx) (r : RoundIdx) (s : State) : State :=
  { s with data := setLane s.data k (invf c fn (laneOf s.data k) (subkeyOf c s.key r)) }

/-- LANEF Fn, Lk, r: both masks are checked, for the keyless F2 and F4 too (41_round_functions.md R135). -/
def execLanef (fn : LaneFn) (k : LaneIdx) (r : RoundIdx) (s : State) : Host.Outcome State Fault Refusal :=
  command true true (.lanef fn k r) (lanefEffect Config.cfg fn k r) s

/-- LANEFI Fn, Lk, r (41_round_functions.md R136). -/
def execLanefi (fn : LaneFn) (k : LaneIdx) (r : RoundIdx) (s : State) : Host.Outcome State Fault Refusal :=
  command true true (.lanefi fn k r) (lanefiEffect Config.cfg fn k r) s

end Sys2Proof.Machine
end

