-- ==== Sys2Proof/Machine/BlockCore.lean ====
section
/-! DEFINITION. The substitution-permutation network (42_block_core.md): layers, rounds, block transforms, and the
commands ENC, DEC, ENCR and DECR. -/

namespace Sys2Proof.Machine

/-- XRC(B, c): every byte XOR c (42_block_core.md R160). -/
def xrc (b : Block) (x : Byte) : Block := b.map (· ^^^ x)

/-- APPLY: lane k through F(k+1) (42_block_core.md R161; 41_round_functions.md R134). -/
def applyLanes (c : Cfg) (b : Block) (sk : Subkey) : Block :=
  joinLanes (f1 c (laneOf b 0) sk) (f2 c (laneOf b 1) sk) (f3 c (laneOf b 2) sk) (f4 c (laneOf b 3) sk)

/-- APPLY_inv (42_block_core.md R162). -/
def applyLanesInv (c : Cfg) (b : Block) (sk : Subkey) : Block :=
  joinLanes (f1Inv c (laneOf b 0) sk) (f2Inv c (laneOf b 1) sk) (f3Inv c (laneOf b 2) sk) (f4Inv c (laneOf b 3) sk)

/-- STEP, one sub-iteration: APPLY, then the block rotated left by 4 bytes (42_block_core.md R161). -/
def subIter (c : Cfg) (sk : Subkey) (b : Block) : Block := rotlBytes 4 (applyLanes c b sk)

/-- STEP_inv: the block rotated right by 4 bytes, then APPLY_inv (42_block_core.md R162). -/
def subIterInv (c : Cfg) (sk : Subkey) (b : Block) : Block := applyLanesInv c (rotrBytes 4 b) sk

/-- A function applied n times. -/
def repeatN (n : Nat) (f : Block → Block) (b : Block) : Block :=
  match n with
  | 0 => b
  | m + 1 => repeatN m f (f b)

/-- ROUND(B, K, r) (42_block_core.md R163). -/
def round (c : Cfg) (b : Block) (k : Block) (r : RoundIdx) : Block :=
  let sk := subkeyOf c k r
  repeatN 4 (subIter c sk) (pout c (xrc b sk[0]))

/-- ROUND_inv(B, K, r) (42_block_core.md R164). -/
def roundInv (c : Cfg) (b : Block) (k : Block) (r : RoundIdx) : Block :=
  let sk := subkeyOf c k r
  xrc (poutInv c (repeatN 4 (subIterInv c sk) b)) sk[0]

/-- The rounds 1, 2, ..., 16 in order (42_block_core.md R165). -/
def allRounds : List RoundIdx := List.finRange 16

/-- ENCRYPT(B, K): rounds 1 to 16 (42_block_core.md R165). -/
def encrypt (c : Cfg) (b : Block) (k : Block) : Block := allRounds.foldl (fun x r => round c x k r) b

/-- DECRYPT(B, K): inverse rounds 16 down to 1 (42_block_core.md R166). -/
def decrypt (c : Cfg) (b : Block) (k : Block) : Block := allRounds.reverse.foldl (fun x r => roundInv c x k r) b

/-- The effect of ENC (42_block_core.md R167). -/
def encEffect (c : Cfg) (s : State) : State := { s with data := encrypt c s.data s.key, dataMask := 0#4 }

/-- The effect of DEC (42_block_core.md R168). -/
def decEffect (c : Cfg) (s : State) : State := { s with data := decrypt c s.data s.key, dataMask := 0#4 }

/-- The effect of ENCR r (42_block_core.md R169). -/
def encrEffect (c : Cfg) (r : RoundIdx) (s : State) : State := { s with data := round c s.data s.key r }

/-- The effect of DECR r (42_block_core.md R170). -/
def decrEffect (c : Cfg) (r : RoundIdx) (s : State) : State := { s with data := roundInv c s.data s.key r }

/-- ENC (42_block_core.md R167). -/
def execEnc (s : State) : Host.Outcome State Fault Refusal := command true true .enc (encEffect Config.cfg) s

/-- DEC (42_block_core.md R168). -/
def execDec (s : State) : Host.Outcome State Fault Refusal := command true true .dec (decEffect Config.cfg) s

/-- ENCR r (42_block_core.md R169). -/
def execEncr (r : RoundIdx) (s : State) : Host.Outcome State Fault Refusal :=
  command true true (.encr r) (encrEffect Config.cfg r) s

/-- DECR r (42_block_core.md R170). -/
def execDecr (r : RoundIdx) (s : State) : Host.Outcome State Fault Refusal :=
  command true true (.decr r) (decrEffect Config.cfg r) s

end Sys2Proof.Machine
end

