-- ==== Sys2Proof/Machine/Stream.lean ====
section
/-! DEFINITION. The host's reference driver as functions of bytes (44_host_driver.md): padding, streams, the entry point,
and what a call on CORE has read back. -/

namespace Sys2Proof.Machine

/-- 16 bytes of a byte string as a block; only ever applied to 16 bytes. -/
def blockOfBytes (bs : List Byte) : Block := Vector.ofFn fun i => bs.getD i.val 0#8

/-- pad_len = 16 - (len(d) mod 16), 1..16 (44_host_driver.md R203; 41_round_functions.md R137). -/
def padLen (d : List Byte) : Nat := 16 - d.length % 16

/-- pad(d): d followed by the bytes 1, 2, ..., pad_len (44_host_driver.md R203). -/
def pad (d : List Byte) : List Byte := d ++ (List.range (padLen d)).map fun i => BitVec.ofNat 8 (i + 1)

/-- unpad(d): the last byte is the count of bytes removed, and only it is checked (44_host_driver.md R204). An empty d
has no last byte, and R206 never passes one (90_conflicts.md C3): it is refused likewise. -/
def unpad (d : List Byte) : Except DriverFailure (List Byte) :=
  match d.getLast? with
  | none => .error .padLength
  | some p => if d.length < p.toNat then .error .padLength else .ok (d.take (d.length - p.toNat))

/-- The first n blocks of a byte string, in order (44_host_driver.md R205). -/
def splitBlocks : Nat → List Byte → List Block
  | 0, _ => []
  | n + 1, d => blockOfBytes (d.take 16) :: splitBlocks n (d.drop 16)

/-- The consecutive 16-byte blocks of a byte string (44_host_driver.md R205). -/
def blocksOf (d : List Byte) : List Block := splitBlocks (d.length / 16) d

/-- The concatenation of some blocks (44_host_driver.md R208). -/
def joinBlocks (bs : List Block) : List Byte := bs.flatMap fun b => b.toList

/-- encrypt_stream(d, K): pad, then each block on its own (44_host_driver.md R205). -/
def encryptStream (c : Cfg) (d : List Byte) (k : Block) : List Byte :=
  joinBlocks ((blocksOf (pad d)).map fun b => encrypt c b k)

/-- Is a decrypt input's length a positive multiple of 16 (44_host_driver.md R206)? -/
def streamLength (d : List Byte) : Bool := d.length ≠ 0 && d.length % 16 = 0

/-- decrypt_stream(c, K) (44_host_driver.md R206). -/
def decryptStream (c : Cfg) (d : List Byte) (k : Block) : Except DriverFailure (List Byte) :=
  if streamLength d then unpad (joinBlocks ((blocksOf d).map fun b => decrypt c b k)) else .error .inputLength

/-- transform(buffer, key, direction) (44_host_driver.md R201, R202). -/
def transform (c : Cfg) (buffer key : List Byte) (dir : Direction) : Except DriverFailure (List Byte) :=
  if key.length ≠ 16 then .error .keyLength
  else
    match dir with
    | .encrypt => .ok (encryptStream c buffer (blockOfBytes key))
    | .decrypt => decryptStream c buffer (blockOfBytes key)

/-- The output blocks among some readings, oldest first: BYTES_4 of each DATA word read (44_host_driver.md R207). -/
def outputBytes (reads : List Reading) : List Byte :=
  (reads.reverse.filter fun r => 8 ≤ r.idx.toNat && r.idx.toNat ≤ 11).flatMap fun r => (bytes4 r.value).toList

/-- The values read since the driver's current call began, the newest first (44_host_driver.md R201; log 12). -/
def callReads (s : State) : List Reading := s.reads.take (s.reads.length - s.callMark)

/-- What the driver's current call returns once its operations are done (44_host_driver.md R201, R206, R207). -/
def driverResult (dir : Direction) (s : State) : Except DriverFailure (List Byte) :=
  match s.failure with
  | some e => .error e
  | none =>
    match dir with
    | .encrypt => .ok (outputBytes (callReads s))
    | .decrypt => unpad (outputBytes (callReads s))

end Sys2Proof.Machine
end

