-- ==== Sys2Proof/Machine/Control.lean ====
section
/-! DEFINITION. The control commands NOP and CLEAR (43_control_commands.md R192, R193). -/

namespace Sys2Proof.Machine

/-- NOP's effect: none (43_control_commands.md R192). -/
def nopEffect (s : State) : State := s

/-- CLEAR's effect: zeroise KEY, DATA, both masks, SKHI and SKLO (43_control_commands.md R193). -/
def clearEffect (s : State) : State :=
  { s with
    key := zeroBlock
    data := zeroBlock
    keyMask := 0#4
    dataMask := 0#4
    skhi := 0#32
    sklo := 0#32 }

/-- NOP: no mask is checked (43_control_commands.md R192). -/
def execNop (s : State) : Host.Outcome State Fault Refusal := command false false .nop nopEffect s

/-- CLEAR: no mask is checked (43_control_commands.md R193). -/
def execClear (s : State) : Host.Outcome State Fault Refusal := command false false .clear clearEffect s

end Sys2Proof.Machine
end

