-- ==== Sys2Proof/Machine/Dispatch.lean ====
section
/-! DEFINITION. The meaning of every command, one arm each. -/

namespace Sys2Proof.Machine

def exec (i : Instr) (s : State) : Host.Outcome State Fault Refusal :=
  match i with
  | .nop => Sys2Proof.Machine.execNop s
  | .enc => Sys2Proof.Machine.execEnc s
  | .dec => Sys2Proof.Machine.execDec s
  | .encr r => Sys2Proof.Machine.execEncr r s
  | .decr r => Sys2Proof.Machine.execDecr r s
  | .subkey r => Sys2Proof.Machine.execSubkey r s
  | .lanef fn k r => Sys2Proof.Machine.execLanef fn k r s
  | .lanefi fn k r => Sys2Proof.Machine.execLanefi fn k r s
  | .clear => Sys2Proof.Machine.execClear s

end Sys2Proof.Machine
end

