-- ==== Sys2Proof/Machine/Flags.lean ====
section
/-! DEFINITION. The STATUS and CTRL views, the validity masks and IRQ (10_state.md R28, R29, R31, R39; 60_exceptions.md
R240). No command result sets a flag (10_state.md R39). -/

namespace Sys2Proof.Machine

/-- STATUS.BUSY (10_state.md R40). -/
def busyBit (s : State) : Bool :=
  match s.phase with
  | .idle => false
  | .busy _ => true

/-- The read view of STATUS: 16 zero bits, DATAMASK, KEYMASK, ERR, OVF, 0, DONE, BUSY (10_state.md R29). -/
def statusWord (s : State) : Word :=
  0#16 ++ s.dataMask ++ s.keyMask ++ s.err ++ BitVec.ofBool s.ovf ++ 0#1 ++ BitVec.ofBool s.done ++
    BitVec.ofBool (busyBit s)

/-- The read view of CTRL: 30 zero bits, IE_ERR, IE_DONE (10_state.md R28). -/
def ctrlWord (s : State) : Word := 0#30 ++ BitVec.ofBool s.ieErr ++ BitVec.ofBool s.ieDone

/-- The CTRL write: IE_DONE <- w[0], IE_ERR <- w[1], the reserved bits ignored (10_state.md R28). -/
def ctrlWrite (w : Word) (s : State) : State := { s with ieDone := w.getLsbD 0, ieErr := w.getLsbD 1 }

/-- A validity mask with bit k set (10_state.md R31). -/
def setMaskBit (m : BitVec 4) (k : LaneIdx) : BitVec 4 := m ||| (1#4 <<< k.val)

/-- The interrupt output (60_exceptions.md R240). -/
def irq (s : State) : Bool := (s.ieDone && s.done) || (s.ieErr && s.err != 0#4)

end Sys2Proof.Machine
end

