-- ==== Sys2Proof/Machine/Window.lean ====
section
/-! DEFINITION. The register window (10_state.md R25; 20_memory.md): the register of an index, the two transactions
RegRead (R64) and RegWrite (R65), and the addresses a byte-addressed bridge gives the window (R63, R68). -/

namespace Sys2Proof.Machine

/-- The registers of the window (10_state.md R25). -/
inductive Reg where
  | id
  | ctrl
  | status
  | cmd
  | key (k : LaneIdx)
  | data (k : LaneIdx)
  | skhi
  | sklo
  | unmapped
deriving DecidableEq, Repr

/-- The register at a word index (10_state.md R25). -/
def regOf (idx : RegIndex) : Reg :=
  match idx.toNat with
  | 0 => .id
  | 1 => .ctrl
  | 2 => .status
  | 3 => .cmd
  | 4 => .key 0
  | 5 => .key 1
  | 6 => .key 2
  | 7 => .key 3
  | 8 => .data 0
  | 9 => .data 1
  | 10 => .data 2
  | 11 => .data 3
  | 12 => .skhi
  | 13 => .sklo
  | _ => .unmapped

/-- The identification constant, "NSSE" (10_state.md R27, R34). -/
def idWord : Word := 0x4E535345#32

/-- The next free value of `draw()` (00_scope.md R16). DESIGN CHOICE, unsafe: it is a function of the index `draws` alone, where
the spec lets a draw be any value, one that depends on KEY or DATA among them (log 3). -/
def drawWord (s : State) : Word × State := (Config.draw s.draws, { s with draws := s.draws + 1 })

/-- A register whose read is exact when idle and a draw when busy (10_state.md R35, R36, R37; 70_reset_and_hazards.md
R267). -/
def readIdle (w : Word) (s : State) : Word × State := if busyBit s then drawWord s else (w, s)

/-- RegRead(idx): the value returned, and the state, in which only the index of the free values may have moved
(20_memory.md R64). While RST is asserted a read returns 0 (70_reset_and_hazards.md R263). -/
def regRead (idx : RegIndex) (s : State) : Word × State :=
  if s.rst then (0#32, s)
  else
    match regOf idx with
    | .id => (idWord, s)
    | .ctrl => (ctrlWord s, s)
    | .status => (statusWord s, s)
    | .cmd => (0#32, s)
    | .key _ => (0#32, s)
    | .data k => readIdle (wordOf s.data k) s
    | .skhi => readIdle s.skhi s
    | .sklo => readIdle s.sklo s
    | .unmapped => (0#32, s)

/-- RegWrite to KEYk (10_state.md R33). -/
def writeKey (k : LaneIdx) (w : Word) (s : State) : State :=
  if busyBit s then raiseError .busy s
  else { s with key := setWord s.key k w, keyMask := setMaskBit s.keyMask k }

/-- RegWrite to DATAk (10_state.md R35). -/
def writeData (k : LaneIdx) (w : Word) (s : State) : State :=
  if busyBit s then raiseError .busy s
  else { s with data := setWord s.data k w, dataMask := setMaskBit s.dataMask k }

/-- RegWrite to CMD: BUSY, then ILLEGAL_CMD, then the command's own checks and acceptance, which its meaning holds
(43_control_commands.md R190; 60_exceptions.md R237). -/
def issueWord (w : Word) (s : State) : Host.Outcome State Fault Refusal :=
  if busyBit s then .next (raiseError .busy s)
  else
    match decode w with
    | .error _ => .next (raiseError .illegalCmd s)
    | .ok i => exec i s

/-- RegWrite(idx, w) (20_memory.md R65). While RST is asserted a write is ignored (70_reset_and_hazards.md R263). -/
def regWrite (idx : RegIndex) (w : Word) (s : State) : Host.Outcome State Fault Refusal :=
  if s.rst then .next s
  else
    match regOf idx with
    | .id => .next (raiseError .access s)
    | .ctrl => .next (ctrlWrite w s)
    | .status => .next (acknowledge w s)
    | .cmd => issueWord w s
    | .key k => .next (writeKey k w s)
    | .data k => .next (writeData k w s)
    | .skhi => .next (raiseError .access s)
    | .sklo => .next (raiseError .access s)
    | .unmapped => .next (raiseError .access s)

/-- The byte offset of a register: 4 times its word index (10_state.md R25). -/
def byteOffset (idx : RegIndex) : Nat := 4 * idx.toNat

/-- The host bus address of a register, at CORE_BASE (20_memory.md R68). -/
def busAddress (idx : RegIndex) : Nat := Config.coreBase + byteOffset idx

/-- The word index a byte-addressed bridge takes a bus address to: offset 4*idx to idx, none outside the window, and
the platform's BRIDGE_SUBWORD for an offset that is no multiple of 4 (20_memory.md R63, R68; log 13). -/
def bridgeIndex (addr : Nat) : Option RegIndex :=
  if addr < Config.coreBase ∨ Config.coreBase + 256 ≤ addr then none
  else if (addr - Config.coreBase) % 4 = 0 then some (BitVec.ofNat 6 ((addr - Config.coreBase) / 4))
  else Config.bridgeSubword (addr - Config.coreBase)

end Sys2Proof.Machine
end

