-- ==== Sys2Proof/Machine/Sequencer.lean ====
section
/-! DEFINITION. The two agents and the order in which they move (10_state.md R20; 20_memory.md R69): the host's
operations, the sequencer's completion step (10_state.md R40), and one step of the whole. -/

namespace Sys2Proof.Machine

/-- The word index of STATUS (10_state.md R25). -/
def statusIndex : RegIndex := 2#6

/-- The word index of CMD (10_state.md R25). -/
def cmdIndex : RegIndex := 3#6

/-- RegRead(idx) with the value bound to a name of the host (20_memory.md R64; 30_encoding.md R90). -/
def hostRead (idx : RegIndex) (name : String) (s : State) : State :=
  { (regRead idx s).2 with reads := { name := name, idx := idx, value := (regRead idx s).1 } :: s.reads }

/-- The value last bound to a name (30_encoding.md R90). -/
def readingOf (name : String) (reads : List Reading) : Option Word :=
  (reads.find? fun r => r.name == name).map Reading.value

/-- WAIT: `RD STATUS -> s`, to be repeated while s[0] = 1 (30_encoding.md R91). -/
def hostWait (s : State) : State :=
  let t := hostRead statusIndex "s" s
  if (regRead statusIndex s).1.getLsbD 0 then { t with host := .wait :: s.host } else t

/-- The host waits until it observes IRQ (20_memory.md R71). -/
def hostWaitIrq (s : State) : State := if irq s then s else { s with host := .waitIrq :: s.host }

/-- Is the operation the return of the driver's call? -/
def isCallLeave (op : HostOp) : Bool :=
  match op with
  | .callLeave _ => true
  | .rd _ _ => false
  | .wr _ _ => false
  | .wait => false
  | .waitIrq => false
  | .check => false
  | .callEnter _ => false
  | .setRst _ => false

/-- if s[7:4] != 0: return Failure(DeviceError(s[7:4])): the rest of the driver's call is not performed
(44_host_driver.md R207; log 12). -/
def hostCheck (s : State) : State :=
  match readingOf "s" s.reads with
  | none => s
  | some w =>
    if w.extractLsb' 4 4 = 0#4 then s
    else
      { s with
        host := s.host.dropWhile fun op => !isCallLeave op
        failure := some (.deviceError (w.extractLsb' 4 4)) }

/-- A call of the driver begins with nothing read and no failure but its own refusal (44_host_driver.md R201, R202, R206;
log 12). -/
def hostCallEnter (refusal : Option DriverFailure) (s : State) : State :=
  { s with callMark := s.reads.length, failure := refusal }

/-- A call of the driver returns its result (44_host_driver.md R201; log 12). -/
def hostCallLeave (dir : Direction) (s : State) : State := { s with result := some (driverResult dir s) }

/-- RST driven to a level; asserting it resets every field of CORE (70_reset_and_hazards.md R260, R261). -/
def driveRst (level : Bool) (s : State) : State :=
  if level then { resetCore s with rst := true } else { s with rst := false }

/-- One operation of the host, already taken from `host`. -/
def hostOp (op : HostOp) (s : State) : Host.Outcome State Fault Refusal :=
  match op with
  | .rd idx name => .next (hostRead idx name s)
  | .wr idx w => regWrite idx w s
  | .wait => .next (hostWait s)
  | .waitIrq => .next (hostWaitIrq s)
  | .check => .next (hostCheck s)
  | .callEnter refusal => .next (hostCallEnter refusal s)
  | .callLeave dir => .next (hostCallLeave dir s)
  | .setRst level => .next (driveRst level s)

/-- The host's turn: its next operation, or nothing when it has none. -/
def hostStep (s : State) : Host.Outcome State Fault Refusal :=
  match s.host with
  | [] => .next s
  | op :: rest => hostOp op { s with host := rest }

/-- The completion step of the word PEND: the instruction it decodes to runs (43_control_commands.md R191). -/
def completion (pend : Word) (s : State) : Host.Outcome State Fault Refusal :=
  match decode pend with
  | .ok i => exec i s
  | .error e => .fault (.pendIllegal e)

/-- One cycle. While RST is asserted every field of CORE is at its reset value (70_reset_and_hazards.md R260, R263).
Else, when the latency of the accepted command has run out, its completion fires; otherwise the host moves, and a
running command is one cycle nearer its completion (20_memory.md R69; 70_reset_and_hazards.md R272, R275; log 4). -/
def cycle (s : State) : Host.Outcome State Fault Refusal :=
  if s.rst then hostStep (resetCore s)
  else
    match s.phase with
    | .idle => hostStep s
    | .busy pend => if s.lat = 0 then completion pend s else hostStep { s with lat := s.lat - 1 }

/-- s with the command word w accepted and its latency run out, so that the next cycle completes it (log 5). -/
def loadPend (w : Word) (s : State) : State := { s with phase := .busy w, lat := 0, rst := false }

end Sys2Proof.Machine
end

