-- ==== Sys2Proof/Machine/Step.lean ====
section
/-! DEFINITION. One step of the machine. -/

namespace Sys2Proof.Machine

/-- One step: one cycle of CORE and its environment. -/
def step (s : State) : Host.Outcome State Fault Refusal := cycle s

/-- CORE fetches no instructions (10_state.md R44): the word step runs next is PEND of an accepted command. This stores
the word there, with nothing left of its latency and RST released, so that the next step runs it (log 5). -/
def State.withFetchWord (s : State) (nbits w : Nat) : State := loadPend (BitVec.ofNat 32 (w % 2 ^ nbits)) s

end Sys2Proof.Machine
end

