-- ==== Sys2Proof/WellFormed.lean ====
section
/-! DEFINITION. The well-formedness checks: the assembler's operand ranges (30_encoding.md R89) and WF(CFG)
(00_scope.md R11). An `Instr` needs no check: every value of RIDX, FN and LANE is legal (30_encoding.md R83, R84) and
its types hold nothing else. -/

namespace Sys2Proof

/-- r is in 1..16 (30_encoding.md R89). -/
def roundInRange (r : Nat) : Bool := 1 ≤ r && r ≤ 16

/-- n of Fn is in 1..4 (30_encoding.md R89). -/
def fnInRange (n : Nat) : Bool := 1 ≤ n && n ≤ 4

/-- k of Lk is in 0..3 (30_encoding.md R89). -/
def laneInRange (k : Nat) : Bool := k ≤ 3

/-- An assembler refuses any operand outside its range (30_encoding.md R89). -/
def AsmCmd.wellFormed : AsmCmd → Bool
  | .nop => true
  | .enc => true
  | .dec => true
  | .encr r => roundInRange r
  | .decr r => roundInRange r
  | .subkey r => roundInRange r
  | .lanef n k r => fnInRange n && laneInRange k && roundInRange r
  | .lanefi n k r => fnInRange n && laneInRange k && roundInRange r
  | .clear => true

/-- Every operand of a command is in the range its encoding admits: r = RIDX + 1 in 1..16 (30_encoding.md R83), every
FN and LANE legal (R84). The operand types admit nothing else (`Laws.instr_wellFormed`). -/
def Instr.wellFormed : Instr → Bool
  | .nop => true
  | .enc => true
  | .dec => true
  | .encr r => roundInRange r.number
  | .decr r => roundInRange r.number
  | .subkey r => roundInRange r.number
  | .lanef _ k r => laneInRange k && roundInRange r.number
  | .lanefi _ k r => laneInRange k && roundInRange r.number
  | .clear => true

/-- `S_bijective` of one table (00_scope.md R11): 256 entries, none twice, every byte among them. -/
abbrev CfgTables.SBijective (t : List Byte) : Prop :=
  t.length = 256 ∧ t.Nodup ∧ ∀ x : Fin 256, BitVec.ofFin x ∈ t

/-- A table that is a bijection of 1..n: n entries, each in 1..n, none twice, every position among them. -/
abbrev CfgTables.PermTable (n : Nat) (t : List Nat) : Prop :=
  t.length = n ∧ t.Nodup ∧ (∀ x ∈ t, 1 ≤ x ∧ x ≤ n) ∧ ∀ x : Fin n, x.val + 1 ∈ t

/-- `P_outer_perm` (00_scope.md R11). -/
abbrev CfgTables.POuterPerm (t : CfgTables) : Prop := CfgTables.PermTable 16 t.pOuter

/-- `P_inner_perm` (00_scope.md R11). -/
abbrev CfgTables.PInnerPerm (t : CfgTables) : Prop := CfgTables.PermTable 32 t.pInner

/-- `RC_total` (00_scope.md R11): exactly 16 entries, any byte values. -/
abbrev CfgTables.RcTotal (t : CfgTables) : Prop := t.rc.length = 16

/-- WF(CFG), the conjunction of the named checks (00_scope.md R11). -/
abbrev CfgTables.WF (t : CfgTables) : Prop :=
  CfgTables.SBijective t.s1 ∧ CfgTables.SBijective t.s2 ∧ CfgTables.SBijective t.s3 ∧ CfgTables.SBijective t.s4 ∧
    t.POuterPerm ∧ t.PInnerPerm ∧ t.RcTotal

end Sys2Proof
end

