-- ==== Sys2Proof/Machine/Build.lean ====
section
/-! DEFINITION. Building a CORE from raw tables: WF(CFG) is checked at elaboration, and an ill-formed record is refused
(00_scope.md R11; 10_state.md R21 to R24; 60_exceptions.md R239; D8). -/

namespace Sys2Proof.Machine

/-- The check of WF(CFG) that a record fails first (00_scope.md R11); DOC's TableIntegrityError, raised at build time
only (60_exceptions.md R239). -/
inductive TableError where
  | s1NotBijective
  | s2NotBijective
  | s3NotBijective
  | s4NotBijective
  | pOuterNotPerm
  | pInnerNotPerm
  | rcNotTotal
deriving DecidableEq, Repr

/-- The bijection a well-formed substitution table lists: entry x is S(x) (10_state.md R21). -/
def permOfBytes (t : List Byte) (h : CfgTables.SBijective t) : Equiv.Perm Byte where
  toFun x := t[x.toNat]'(Nat.lt_of_lt_of_eq x.isLt h.1.symm)
  invFun y := BitVec.ofNat 8 (t.idxOf y)
  left_inv x := by
    show BitVec.ofNat 8 (t.idxOf (t[x.toNat]'(Nat.lt_of_lt_of_eq x.isLt h.1.symm))) = x
    rw [h.2.1.idxOf_getElem, BitVec.ofNat_toNat, BitVec.setWidth_eq]
  right_inv y := by
    have hm : y ∈ t := h.2.2 y.toFin
    have hlt : t.idxOf y < 256 := h.1 ▸ List.idxOf_lt_length_of_mem hm
    simp [Nat.mod_eq_of_lt hlt]

/-- The bijection of positions a well-formed permutation table lists, both counted from 0 here and from 1 in the table
(10_state.md R22, R23). -/
def permOfPositions {n : Nat} (t : List Nat) (h : CfgTables.PermTable n t) : Equiv.Perm (Fin n) where
  toFun i := ⟨t[i.val]'(Nat.lt_of_lt_of_eq i.isLt h.1.symm) - 1, by
    have hr := h.2.2.1 _ (List.getElem_mem (Nat.lt_of_lt_of_eq i.isLt h.1.symm))
    omega⟩
  invFun j := ⟨t.idxOf (j.val + 1), by
    have hlt := List.idxOf_lt_length_of_mem (h.2.2.2 j)
    have hlen := h.1
    omega⟩
  left_inv i := by
    have hr := h.2.2.1 _ (List.getElem_mem (Nat.lt_of_lt_of_eq i.isLt h.1.symm))
    apply Fin.ext
    simp only [Nat.sub_add_cancel hr.1]
    exact h.2.1.idxOf_getElem _ _
  right_inv j := by
    apply Fin.ext
    simp

/-- The CORE configuration of raw tables, or the first check of WF(CFG) they fail: a CFG that fails WF is refused and
no CORE exists for it (00_scope.md R11, I1). -/
def buildCfg (t : CfgTables) : Except TableError Cfg :=
  if h1 : CfgTables.SBijective t.s1 then
    if h2 : CfgTables.SBijective t.s2 then
      if h3 : CfgTables.SBijective t.s3 then
        if h4 : CfgTables.SBijective t.s4 then
          if hO : t.POuterPerm then
            if hI : t.PInnerPerm then
              if hR : t.RcTotal then
                .ok
                  { s1 := permOfBytes t.s1 h1
                    s2 := permOfBytes t.s2 h2
                    s3 := permOfBytes t.s3 h3
                    s4 := permOfBytes t.s4 h4
                    pOuter := permOfPositions t.pOuter hO
                    pInner := permOfPositions t.pInner hI
                    rc := fun j => t.rc[j.val]'(Nat.lt_of_lt_of_eq j.isLt hR.symm) }
              else .error .rcNotTotal
            else .error .pInnerNotPerm
          else .error .pOuterNotPerm
        else .error .s4NotBijective
      else .error .s3NotBijective
    else .error .s2NotBijective
  else .error .s1NotBijective

end Sys2Proof.Machine
end

