-- ==== Sys2Proof/Machine/Assembler.lean ====
section
/-! DEFINITION. The spec's assembler: command syntax (30_encoding.md R89), host program syntax and transaction encodings
(R90), and the pseudo-instructions (R91). One line is a list of characters; tokens are separated by blanks and commas,
and mnemonics and register names are case-insensitive (log 11). -/

namespace Sys2Proof.Machine

/-- The operand checks passed, the command (30_encoding.md R89); none when an operand is outside its range. -/
def assembleCmd (c : AsmCmd) : Option Instr :=
  if c.wellFormed then
    let round (r : Nat) : RoundIdx := Fin.ofNat 16 (r - 1)
    let fn (n : Nat) : LaneFn := if n = 1 then .f1 else if n = 2 then .f2 else if n = 3 then .f3 else .f4
    match c with
    | .nop => some .nop
    | .enc => some .enc
    | .dec => some .dec
    | .encr r => some (.encr (round r))
    | .decr r => some (.decr (round r))
    | .subkey r => some (.subkey (round r))
    | .lanef n k r => some (.lanef (fn n) (Fin.ofNat 4 k) (round r))
    | .lanefi n k r => some (.lanefi (fn n) (Fin.ofNat 4 k) (round r))
    | .clear => some .clear
  else none

/-! The pseudo-instructions of a host program (30_encoding.md R91). -/

/-- `CMD c`: `WR CMD, word(c)`. -/
def cmdOp (i : Instr) : HostOp := .wr cmdIndex (encode i)

/-- `LDKEY k0, k1, k2, k3`. -/
def ldKey (k0 k1 k2 k3 : Word) : List HostOp := [.wr 4#6 k0, .wr 5#6 k1, .wr 6#6 k2, .wr 7#6 k3]

/-- `LDBLK d0, d1, d2, d3`. -/
def ldBlk (d0 d1 d2 d3 : Word) : List HostOp := [.wr 8#6 d0, .wr 9#6 d1, .wr 10#6 d2, .wr 11#6 d3]

/-- `RDBLK -> b`. -/
def rdBlk (b : String) : List HostOp :=
  [.rd 8#6 (b ++ "0"), .rd 9#6 (b ++ "1"), .rd 10#6 (b ++ "2"), .rd 11#6 (b ++ "3")]

/-- `ACK`: `WR STATUS, 0x00000006`. -/
def ackOp : HostOp := .wr statusIndex 0x00000006#32

/-- `RUN c`: `CMD c` then `WAIT`. -/
def runCmd (i : Instr) : List HostOp := [cmdOp i, .wait]

/-! Text. -/

/-- A token. -/
abbrev Token := List Char

/-- Does the character separate tokens? -/
def isSeparator (ch : Char) : Bool := ch = ' ' || ch = '\t' || ch = ','

/-- The tokens of a line, `cur` being the token under way, reversed. -/
def tokensFrom (cur : Token) : List Char → List Token
  | [] => if cur.isEmpty then [] else [cur.reverse]
  | ch :: rest =>
    if isSeparator ch then
      if cur.isEmpty then tokensFrom [] rest else cur.reverse :: tokensFrom [] rest
    else tokensFrom (ch :: cur) rest

/-- The tokens of a line. -/
def tokens (line : List Char) : List Token := tokensFrom [] line

/-- A token in capitals: mnemonics and register names are case-insensitive (30_encoding.md R89). -/
def upper (t : Token) : Token := t.map Char.toUpper

/-- The value of a hexadecimal digit. -/
def digitValue (ch : Char) : Option Nat :=
  if '0' ≤ ch ∧ ch ≤ '9' then some (ch.toNat - '0'.toNat)
  else if 'A' ≤ ch ∧ ch ≤ 'F' then some (ch.toNat - 'A'.toNat + 10)
  else if 'a' ≤ ch ∧ ch ≤ 'f' then some (ch.toNat - 'a'.toNat + 10)
  else none

/-- The number of a list of digits in a base; none when there is no digit or one is not of the base. -/
def numberIn (base : Nat) (ds : List Char) : Option Nat :=
  if ds.isEmpty then none
  else
    ds.foldl
      (fun acc ch =>
        match acc, digitValue ch with
        | some n, some d => if d < base then some (n * base + d) else none
        | _, _ => none)
      (some 0)

/-- A number, decimal or 0x-hexadecimal (30_encoding.md R89). -/
def parseNumber (t : Token) : Option Nat :=
  match t with
  | '0' :: 'x' :: ds => numberIn 16 ds
  | '0' :: 'X' :: ds => numberIn 16 ds
  | ds => numberIn 10 ds

/-- A 32-bit immediate (30_encoding.md R90). -/
def parseWord (t : Token) : Option Word :=
  match parseNumber t with
  | some n => if n < 2 ^ 32 then some (BitVec.ofNat 32 n) else none
  | none => none

/-- A token of a letter and a number: `Fn` or `Lk` (30_encoding.md R89). -/
def parseLetterNumber (letter : Char) (t : Token) : Option Nat :=
  match t with
  | ch :: ds => if ch.toUpper = letter then numberIn 10 ds else none
  | [] => none

/-- A command line (30_encoding.md R89), operands not yet checked against their ranges. -/
def parseCmd (ts : List Token) : Option AsmCmd :=
  match ts with
  | [m] =>
    if upper m = "NOP".toList then some .nop
    else if upper m = "ENC".toList then some .enc
    else if upper m = "DEC".toList then some .dec
    else if upper m = "CLEAR".toList then some .clear
    else none
  | [m, r] =>
    if upper m = "ENCR".toList then (parseNumber r).map .encr
    else if upper m = "DECR".toList then (parseNumber r).map .decr
    else if upper m = "SUBKEY".toList then (parseNumber r).map .subkey
    else none
  | [m, fn, lane, r] =>
    match parseLetterNumber 'F' fn, parseLetterNumber 'L' lane, parseNumber r with
    | some n, some k, some r =>
      if upper m = "LANEF".toList then some (.lanef n k r)
      else if upper m = "LANEFI".toList then some (.lanefi n k r)
      else none
    | _, _, _ => none
  | _ => none

/-- A command's text assembled: its instruction, or none (30_encoding.md R89). -/
def assembleTokens (ts : List Token) : Option Instr :=
  match parseCmd ts with
  | some c => assembleCmd c
  | none => none

/-- The word of a command's text (30_encoding.md R89). -/
def assembleLine (line : List Char) : Option Word := (assembleTokens (tokens line)).map encode

/-- The register names and their word indices (30_encoding.md R90; 10_state.md R25). -/
def regNames : List (String × RegIndex) :=
  [("ID", 0#6), ("CTRL", 1#6), ("STATUS", 2#6), ("CMD", 3#6), ("KEY0", 4#6), ("KEY1", 5#6), ("KEY2", 6#6),
    ("KEY3", 7#6), ("DATA0", 8#6), ("DATA1", 9#6), ("DATA2", 10#6), ("DATA3", 11#6), ("SKHI", 12#6), ("SKLO", 13#6)]

/-- A register operand at the head of some tokens, a name or `IDX n`, and the tokens after it (30_encoding.md R90). -/
def parseReg (ts : List Token) : Option (RegIndex × List Token) :=
  match ts with
  | [] => none
  | t :: rest =>
    match regNames.find? fun p => p.1.toList = upper t with
    | some p => some (p.2, rest)
    | none =>
      if upper t = "IDX".toList then
        match rest with
        | n :: rest' =>
          match parseNumber n with
          | some i => if i < 64 then some (BitVec.ofNat 6 i, rest') else none
          | none => none
        | [] => none
      else none

/-- Four 32-bit operands (30_encoding.md R91). -/
def parseFour (f : Word → Word → Word → Word → List HostOp) (ts : List Token) : Option (List HostOp) :=
  match ts with
  | [a, b, c, d] =>
    match parseWord a, parseWord b, parseWord c, parseWord d with
    | some a, some b, some c, some d => some (f a b c d)
    | _, _, _, _ => none
  | _ => none

/-- The arrow before a name (30_encoding.md R90). -/
def arrow : Token := ['-', '>']

/-- A line of a host program as the operations it stands for (30_encoding.md R90, R91). -/
def assembleHostLine (line : List Char) : Option (List HostOp) :=
  match tokens line with
  | [] => none
  | m :: ts =>
    if upper m = "WR".toList then
      match parseReg ts with
      | some (idx, [w]) => (parseWord w).map fun w => [.wr idx w]
      | _ => none
    else if upper m = "RD".toList then
      match parseReg ts with
      | some (idx, [a, name]) => if a = arrow then some [.rd idx (String.ofList name)] else none
      | _ => none
    else if upper m = "CMD".toList then (assembleTokens ts).map fun i => [cmdOp i]
    else if upper m = "RUN".toList then (assembleTokens ts).map runCmd
    else if upper m = "LDKEY".toList then parseFour ldKey ts
    else if upper m = "LDBLK".toList then parseFour ldBlk ts
    else if upper m = "RDBLK".toList then
      match ts with
      | [a, b] => if a = arrow then some (rdBlk (String.ofList b)) else none
      | _ => none
    else if upper m = "WAIT".toList ∧ ts = [] then some [.wait]
    else if upper m = "ACK".toList ∧ ts = [] then some [ackOp]
    else none

/-- A hexadecimal digit of a value below 16. -/
def hexDigit (n : Nat) : Char := if n < 10 then Char.ofNat ('0'.toNat + n) else Char.ofNat ('A'.toNat + n - 10)

/-- The last `digits` hexadecimal digits of a number. -/
def hexText : Nat → Nat → List Char
  | 0, _ => []
  | digits + 1, n => hexText digits (n / 16) ++ [hexDigit (n % 16)]

/-- A transaction's encoding, `W idx word` or `R idx`, the index in two hexadecimal digits (30_encoding.md R90); none
for an operation that is not one transaction. -/
def transactionText (op : HostOp) : Option (List Char) :=
  match op with
  | .wr idx w => some ("W ".toList ++ hexText 2 idx.toNat ++ [' '] ++ hexText 8 w.toNat)
  | .rd idx _ => some ("R ".toList ++ hexText 2 idx.toNat)
  | .wait => none
  | .waitIrq => none
  | .check => none
  | .callEnter _ => none
  | .callLeave _ => none
  | .setRst _ => none

end Sys2Proof.Machine
end

