-- ==== Sys2Proof/Machine/Driver.lean ====
section
/-! DEFINITION. The host's reference driver on CORE, FileBlockDriver (44_host_driver.md): the transactions of a block, of
a stream and of a call. Its functions of bytes are in Machine/Stream.lean. -/

namespace Sys2Proof.Machine

/-! The driver on CORE (44_host_driver.md R207). -/

/-- The block command of a direction. -/
def blockCommand (dir : Direction) : Instr :=
  match dir with
  | .encrypt => .enc
  | .decrypt => .dec

/-- One block: LDBLK, CMD, WAIT, the check of ERR, RDBLK (44_host_driver.md R207). -/
def driveBlock (dir : Direction) (x : Block) : List HostOp :=
  ldBlk (wordOf x 0) (wordOf x 1) (wordOf x 2) (wordOf x 3) ++ [cmdOp (blockCommand dir)] ++
    [.wait, .rd statusIndex "s", .check] ++ rdBlk "y"

/-- A stream: ACK, LDKEY once, each block in order, and at the end `RUN CLEAR` if the driver chooses to
(44_host_driver.md R207, R212; log 12). -/
def driveStream (dir : Direction) (blocks : List Block) (k : Block) (scrub : Bool) : List HostOp :=
  [ackOp] ++ ldKey (wordOf k 0) (wordOf k 1) (wordOf k 2) (wordOf k 3) ++ blocks.flatMap (driveBlock dir) ++
    (if scrub then runCmd .clear else [])

/-- The operations the driver performs for transform(buffer, key, direction), or the failure with which it refuses
before CORE is touched (44_host_driver.md R201, R202, R205, R206, R207). -/
def driveTransform (buffer key : List Byte) (dir : Direction) (scrub : Bool) :
    Except DriverFailure (List HostOp) :=
  if key.length ≠ 16 then .error .keyLength
  else
    match dir with
    | .encrypt => .ok (driveStream .encrypt (blocksOf (pad buffer)) (blockOfBytes key) scrub)
    | .decrypt =>
      if streamLength buffer then .ok (driveStream .decrypt (blocksOf buffer) (blockOfBytes key) scrub)
      else .error .inputLength

/-- A whole call of transform(buffer, key, direction) on CORE: entered, refused or driven, and left with its result
(44_host_driver.md R201, R207; log 12). -/
def driveCall (buffer key : List Byte) (dir : Direction) (scrub : Bool) : List HostOp :=
  match driveTransform buffer key dir scrub with
  | .error e => [.callEnter (some e), .callLeave dir]
  | .ok ops => [.callEnter none] ++ ops ++ [.callLeave dir]

end Sys2Proof.Machine
end

