-- ==== Sys2Proof/Safety.lean ====
section
/-! DEFINITION. What counts as a good state and a safe step, in the terms the statements use. -/

namespace Sys2Proof.Machine

/-- NEEDS_KEY(d) (43_control_commands.md R190). -/
def needsKey : Instr → Bool
  | .nop => false
  | .enc => true
  | .dec => true
  | .encr _ => true
  | .decr _ => true
  | .subkey _ => true
  | .lanef _ _ _ => true
  | .lanefi _ _ _ => true
  | .clear => false

/-- NEEDS_DATA(d) (43_control_commands.md R190). -/
def needsData : Instr → Bool
  | .nop => false
  | .enc => true
  | .dec => true
  | .encr _ => true
  | .decr _ => true
  | .subkey _ => false
  | .lanef _ _ _ => true
  | .lanefi _ _ _ => true
  | .clear => false

/-- The invariant of CORE: what holds at reset and after every step. -/
structure Inv (s : State) : Prop where
  /-- ERR is one of the codes 0..5; 6..15 are never written (60_exceptions.md R231). -/
  err_defined : s.err.toNat ≤ 5
  /-- OVF is set only while an earlier error is recorded (60_exceptions.md R236). -/
  ovf_after_err : s.ovf = true → s.err ≠ 0#4
  /-- PEND is a legal word whose needs the masks meet, and DONE is 0 (43_control_commands.md R190; 10_state.md R41). -/
  pend_accepted : ∀ w, s.phase = .busy w → s.done = false ∧ ∃ i, decode w = .ok i ∧
    (needsKey i = true → s.keyMask = 0b1111#4) ∧ (needsData i = true → s.dataMask = 0b1111#4)
  /-- The reserved bits 31:20 and 15:13 of SKHI are 0 (10_state.md R36). -/
  skhi_reserved : s.skhi &&& 0xFFF0E000#32 = 0#32
  /-- A KEY word whose mask bit is 0 is zero: reset and CLEAR zero the key with its mask (10_state.md R31, R33;
  43_control_commands.md R193). -/
  key_unwritten : ∀ k : LaneIdx, s.keyMask.getLsbD k.val = false → wordOf s.key k = 0#32
  /-- While RST is asserted every field of CORE is at its reset value (70_reset_and_hazards.md R260). -/
  rst_held : s.rst = true → resetCore s = s

/-- A step that goes on: CORE has no trap and no stop (60_exceptions.md R230). -/
def Continues (s : State) : Prop := ∃ t, step s = .next t

/-- The operation of the host that a step from s performs, if any: none while a completion fires. -/
def hostMoves (s : State) : Option HostOp :=
  match s.phase with
  | .idle => s.host.head?
  | .busy _ => if s.rst = false ∧ s.lat = 0 then none else s.host.head?

/-- The instruction that completes in a step from s, if any. -/
def completes (s : State) : Option Instr :=
  match s.phase with
  | .idle => none
  | .busy w => if s.rst = false ∧ s.lat = 0 then (decode w).toOption else none

/-- The step from s puts or keeps CORE in reset (70_reset_and_hazards.md R260). -/
def resets (s : State) : Prop := s.rst = true ∨ hostMoves s = some (.setRst true)

end Sys2Proof.Machine
end

