-- ==== Sys2Proof/Certificates/Slice0/Obligations.lean ====
section
/-! DEFINITION. The statements for the provers: what the numbered rules of the spec say of commands, transactions,
errors, reset and the cipher. A record update in a conclusion says the frame: every field it does not name is as
before. CORE has no memory (20_memory.md R60). -/

open Sys2Proof Sys2Proof.Machine

/-! ## Encoding -/

/-- Decoding the encoding of a well-formed instruction gives it back, at every operand value (30_encoding.md R81, R82,
R85). -/
def Obligations.DecodeOfEncodeIsInstruction : Prop :=
  ∀ i : Instr, i.wellFormed = true → decode (encode i) = .ok i

/-- A word that decodes is the encoding of what it decodes to: each command has one word for each operand choice
(30_encoding.md R82, R86). -/
def Obligations.EncodeOfDecodeIsWord : Prop :=
  ∀ (w : Word) (i : Instr), decode w = .ok i → encode i = w

/-- The match/mask rows: a word decodes to a row's command exactly when (w & mask) = match (30_encoding.md R82). -/
def Obligations.DecodeFollowsMatchMask : Prop :=
  ∀ w : Word,
    (decode w = .ok .nop ↔ w &&& 0xFFFFFFFF#32 = 0x00000000#32) ∧
    (decode w = .ok .enc ↔ w &&& 0xFFFFFFFF#32 = 0x00000001#32) ∧
    (decode w = .ok .dec ↔ w &&& 0xFFFFFFFF#32 = 0x00000002#32) ∧
    ((∃ r, decode w = .ok (.encr r)) ↔ w &&& 0xFFFFFF0F#32 = 0x00000003#32) ∧
    ((∃ r, decode w = .ok (.decr r)) ↔ w &&& 0xFFFFFF0F#32 = 0x00000004#32) ∧
    ((∃ r, decode w = .ok (.subkey r)) ↔ w &&& 0xFFFFFF0F#32 = 0x00000005#32) ∧
    ((∃ fn k r, decode w = .ok (.lanef fn k r)) ↔ w &&& 0xFFFFCC0F#32 = 0x00000006#32) ∧
    ((∃ fn k r, decode w = .ok (.lanefi fn k r)) ↔ w &&& 0xFFFFCC0F#32 = 0x00000406#32) ∧
    (decode w = .ok .clear ↔ w &&& 0xFFFFFFFF#32 = 0x00000007#32)

/-- The operand fields: RIDX is bits 7:4, FN bits 9:8, LANE bits 13:12 (30_encoding.md R81, R83, R84). -/
def Obligations.OperandsComeFromTheirFields : Prop :=
  (∀ (w : Word) (r : RoundIdx),
    decode w = .ok (.encr r) ∨ decode w = .ok (.decr r) ∨ decode w = .ok (.subkey r) → r.number = w.toNat / 16 % 16 + 1) ∧
  (∀ (w : Word) (fn : LaneFn) (k : LaneIdx) (r : RoundIdx),
    decode w = .ok (.lanef fn k r) ∨ decode w = .ok (.lanefi fn k r) →
      r.number = w.toNat / 16 % 16 + 1 ∧ k.val = w.toNat / 4096 % 4 ∧
        fn = (match w.toNat / 256 % 4 with | 0 => .f1 | 1 => .f2 | 2 => .f3 | _ => .f4))

/-- A word is ILLEGAL exactly when its OP is 8 to 15, a reserved bit is 1, or a field its operation does not use is
nonzero; written to CMD while BUSY = 0 it raises ILLEGAL_CMD and changes nothing else (30_encoding.md R86). -/
def Obligations.IllegalWordsAreRefused : Prop :=
  (∀ w : Word, (∃ e, decode w = .error e) ↔
    8 ≤ w.toNat % 16 ∨ w.toNat / 2 ^ 11 % 2 = 1 ∨ w.toNat / 2 ^ 14 ≠ 0 ∨
      ((w.toNat % 16 ≤ 2 ∨ w.toNat % 16 = 7) ∧ w.toNat / 2 ^ 4 ≠ 0) ∨
      (3 ≤ w.toNat % 16 ∧ w.toNat % 16 ≤ 5 ∧ w.toNat / 2 ^ 8 ≠ 0)) ∧
  (∀ (s : State) (w : Word) (e : DecodeError), s.rst = false → s.phase = .idle → decode w = .error e →
    regWrite 3#6 w s = .next (if s.err = 0#4 then { s with err := 1#4 } else { s with ovf := true }))

/-- Words of the spec's table, written out, decode to the commands it gives (30_encoding.md R89). -/
def Obligations.WordsOfTheSpecDecode : Prop :=
  decode 0x00000000#32 = .ok .nop ∧ decode 0x00000001#32 = .ok .enc ∧ decode 0x00000002#32 = .ok .dec ∧
    decode 0x000000F3#32 = .ok (.encr 15) ∧ decode 0x000000F4#32 = .ok (.decr 15) ∧
    decode 0x00000045#32 = .ok (.subkey 4) ∧ decode 0x00002206#32 = .ok (.lanef .f3 2 0) ∧
    decode 0x00000486#32 = .ok (.lanefi .f1 0 8) ∧ decode 0x00000007#32 = .ok .clear

/-! ## What each command does at completion -/

/-- NOP completes with no effect but BUSY <- 0 and DONE <- 1 (43_control_commands.md R191, R192). -/
def Obligations.NopCompletes : Prop :=
  ∀ (s : State) (w : Word), s.phase = .busy w → exec .nop s = .next { s with phase := .idle, done := true }

/-- CLEAR completes with KEY, DATA, both masks, SKHI and SKLO zero (43_control_commands.md R191, R193). -/
def Obligations.ClearZeroises : Prop :=
  ∀ (s : State) (w : Word), s.phase = .busy w →
    exec .clear s = .next { s with
      key := Vector.replicate 16 0#8
      data := Vector.replicate 16 0#8
      keyMask := 0#4
      dataMask := 0#4
      skhi := 0#32
      sklo := 0#32
      phase := .idle
      done := true }

/-- ENC and DEC complete with DATA the transform of DATA under KEY and DATAMASK 0000 (42_block_core.md R167, R168). -/
def Obligations.BlockCommandsComplete : Prop :=
  ∀ (s : State) (w : Word), s.phase = .busy w →
    exec .enc s = .next { s with
      data := encrypt Config.cfg s.data s.key, dataMask := 0#4, phase := .idle, done := true } ∧
    exec .dec s = .next { s with
      data := decrypt Config.cfg s.data s.key, dataMask := 0#4, phase := .idle, done := true }

/-- ENCR r and DECR r complete with DATA one round further or back, the masks unchanged (42_block_core.md R169, R170). -/
def Obligations.RoundCommandsComplete : Prop :=
  ∀ (s : State) (w : Word) (r : RoundIdx), s.phase = .busy w →
    exec (.encr r) s = .next { s with
      data := Machine.round Config.cfg s.data s.key r, phase := .idle, done := true } ∧
    exec (.decr r) s = .next { s with
      data := roundInv Config.cfg s.data s.key r, phase := .idle, done := true }

/-- SUBKEY r completes with RIDX, ROT and SK0 in SKHI's fields and the four rotated key bytes in SKLO
(40_key_schedule.md R106). -/
def Obligations.SubkeyCommandCompletes : Prop :=
  ∀ (s : State) (w : Word) (r : RoundIdx), s.phase = .busy w →
    ∃ hi lo : Word,
      exec (.subkey r) s = .next { s with skhi := hi, sklo := lo, phase := .idle, done := true } ∧
      hi.toNat = r.val * 2 ^ 16 + rotOf (subkeyOf Config.cfg s.key r) * 2 ^ 8 + (Config.cfg.rc r).toNat ∧
      lo.toNat = be ((subkeyOf Config.cfg s.key r).toList.drop 1)

/-- LANEF and LANEFI complete with lane k transformed by the chosen function under the round's subkey, and the other
12 bytes of DATA unchanged (41_round_functions.md R135, R136). -/
def Obligations.LaneCommandsComplete : Prop :=
  ∀ (s : State) (w : Word) (fn : LaneFn) (k : LaneIdx) (r : RoundIdx), s.phase = .busy w →
    (∃ d : Block,
      exec (.lanef fn k r) s = .next { s with data := d, phase := .idle, done := true } ∧
      laneOf d k = fwd Config.cfg fn (laneOf s.data k) (subkeyOf Config.cfg s.key r) ∧
      ∀ i : Fin 16, i.val / 4 ≠ k.val → d[i] = s.data[i]) ∧
    (∃ d : Block,
      exec (.lanefi fn k r) s = .next { s with data := d, phase := .idle, done := true } ∧
      laneOf d k = invf Config.cfg fn (laneOf s.data k) (subkeyOf Config.cfg s.key r) ∧
      ∀ i : Fin 16, i.val / 4 ≠ k.val → d[i] = s.data[i])

/-! ## The life cycle -/

/-- Issue: the checks in the order BUSY, ILLEGAL_CMD, KEY_INCOMPLETE, DATA_INCOMPLETE, then PHASE <- BUSY(w) and DONE <- 0
(43_control_commands.md R190). `lat` and `draws` are the model's own bookkeeping, of which it says nothing (log 2, 3). -/
def Obligations.CmdWriteIssuesInOrder : Prop :=
  (∀ i : Instr, needsKey i = true ↔ i ≠ .nop ∧ i ≠ .clear) ∧
  (∀ i : Instr, needsData i = true ↔ i ≠ .nop ∧ i ≠ .clear ∧ ∀ r, i ≠ .subkey r) ∧
  ∀ (s : State) (w : Word), s.rst = false →
    (∀ c, s.phase = .busy c → regWrite 3#6 w s = .next (raiseError .busy s)) ∧
    (s.phase = .idle →
      (∀ e, decode w = .error e → regWrite 3#6 w s = .next (raiseError .illegalCmd s)) ∧
      (∀ i, decode w = .ok i → ∃ t, regWrite 3#6 w s = .next t ∧
        t = (
          if needsKey i = true ∧ s.keyMask ≠ 0b1111#4 then raiseError .keyIncomplete s
          else if needsData i = true ∧ s.dataMask ≠ 0b1111#4 then raiseError .dataIncomplete s
          else { s with phase := .busy w, done := false, lat := t.lat, draws := t.draws })))

/-- A step runs the decoded instruction: at completion exec of PEND's instruction, at a CMD write while idle exec of the
written word's instruction once the host's operation is taken (43_control_commands.md R190, R191). -/
def Obligations.StepRunsDecodedInstruction : Prop :=
  (∀ (s : State) (w : Word) (i : Instr), s.rst = false → s.phase = .busy w → s.lat = 0 → decode w = .ok i →
    i.wellFormed = true → step s = exec i s) ∧
  (∀ (s : State) (w : Word) (i : Instr) (rest : List HostOp), s.rst = false → s.phase = .idle →
    s.host = .wr 3#6 w :: rest → decode w = .ok i → i.wellFormed = true → step s = exec i { s with host := rest })

/-- The word withFetchWord stores is the one the next step runs (10_state.md R44; log 5). -/
def Obligations.FetchWordRunsNext : Prop :=
  ∀ (s : State) (w : Word) (i : Instr), decode w = .ok i →
    step (s.withFetchWord 32 w.toNat) = exec i { s with phase := .busy w, lat := 0, rst := false }

/-- While a command runs, nothing but its completion or reset changes its word, KEY, DATA, the masks, SKHI or SKLO, and each step
brings completion one cycle nearer (10_state.md R33, R35, R41; 20_memory.md R73). -/
def Obligations.BusyHoldsItsOperands : Prop :=
  ∀ (s t : State) (w : Word), s.rst = false → s.phase = .busy w → s.lat ≠ 0 →
    hostMoves s ≠ some (.setRst true) → step s = .next t →
    t.phase = .busy w ∧ t.lat = s.lat - 1 ∧ t.rst = false ∧ t.key = s.key ∧ t.data = s.data ∧
      t.keyMask = s.keyMask ∧ t.dataMask = s.dataMask ∧ t.skhi = s.skhi ∧ t.sklo = s.sklo

/-- Every accepted command completes: unless the host asserts RST, after the cycles of its latency and one more CORE is
idle with DONE = 1, and KEY, DATA, the masks, SKHI and SKLO are what its completion makes of them as they stood
before (70_reset_and_hazards.md R275; 10_state.md R41; log 2). -/
def Obligations.AcceptedCommandCompletes : Prop :=
  ∀ (s : State) (w : Word) (i : Instr), s.rst = false → s.phase = .busy w → decode w = .ok i →
    (∀ op ∈ s.host, op ≠ .setRst true) →
    ∃ t u : State, Host.Core.run Sys2Proof.core (s.lat + 1) s = .next t ∧ exec i s = .next u ∧
      t.phase = .idle ∧ t.done = true ∧ t.key = u.key ∧ t.data = u.data ∧ t.keyMask = u.keyMask ∧
      t.dataMask = u.dataMask ∧ t.skhi = u.skhi ∧ t.sklo = u.sklo

/-- An accepted command is busy or done at every later step, but for a STATUS write that clears DONE and for reset
(70_reset_and_hazards.md R271). -/
def Obligations.AcceptedIsBusyOrDone : Prop :=
  ∀ s t : State, s.phase ≠ .idle ∨ s.done = true → step s = .next t → ¬ resets s →
    (∀ w : Word, hostMoves s = some (.wr 2#6 w) → w.getLsbD 1 = false) →
    t.phase ≠ .idle ∨ t.done = true

/-- WAIT reads STATUS once a step, and goes on exactly when BUSY read 0 (30_encoding.md R91). -/
def Obligations.WaitRepeatsWhileBusy : Prop :=
  ∀ (s : State) (rest : List HostOp), s.rst = false → s.host = .wait :: rest →
    (s.phase = .idle → ∃ t, step s = .next t ∧ t.host = rest ∧
      t.reads = { name := "s", idx := 2#6, value := statusWord s } :: s.reads) ∧
    (∀ w, s.phase = .busy w → s.lat ≠ 0 → ∃ t, step s = .next t ∧ t.host = .wait :: rest ∧
      t.reads = { name := "s", idx := 2#6, value := statusWord s } :: s.reads)

/-! ## Errors and the interrupt -/

/-- Raising an error: the first since the last clear is kept in ERR under its code, and a later one sets OVF; a STATUS
write with bit 2 or reset returns ERR and OVF to 0, and nothing else does (60_exceptions.md R236, codes of R231). -/
def Obligations.FirstErrorIsKeptUntilCleared : Prop :=
  (∀ (code : ErrorCode) (s : State),
    raiseError code s = (if s.err = 0#4 then { s with err := errorValue code } else { s with ovf := true })) ∧
  errorValue .illegalCmd = 1#4 ∧ errorValue .keyIncomplete = 2#4 ∧ errorValue .dataIncomplete = 3#4 ∧
  errorValue .busy = 4#4 ∧ errorValue .access = 5#4 ∧
  (∀ s t : State, step s = .next t →
    (resets s → t.err = 0#4 ∧ t.ovf = false) ∧
    (∀ w : Word, ¬ resets s → hostMoves s = some (.wr 2#6 w) → w.getLsbD 2 = true → t.err = 0#4 ∧ t.ovf = false) ∧
    (¬ resets s → (∀ w : Word, hostMoves s = some (.wr 2#6 w) → w.getLsbD 2 = false) →
      (s.err ≠ 0#4 → t.err = s.err) ∧ (s.ovf = true → t.ovf = true)))

/-- Writes to ID, SKHI, SKLO and the unmapped indices raise ACCESS, busy or not, and change nothing else; no read raises
it, and a read of a write-only or unmapped index returns 0 (60_exceptions.md R232). -/
def Obligations.ReadOnlyWritesRaiseAccess : Prop :=
  ∀ (s : State) (idx : RegIndex) (w : Word), s.rst = false →
    (idx.toNat = 0 ∨ 12 ≤ idx.toNat →
      regWrite idx w s = .next (if s.err = 0#4 then { s with err := 5#4 } else { s with ovf := true })) ∧
    (regRead idx s).2.err = s.err ∧ (regRead idx s).2.ovf = s.ovf ∧
    ((3 ≤ idx.toNat ∧ idx.toNat ≤ 7) ∨ 14 ≤ idx.toNat → regRead idx s = (0#32, s))

/-- While BUSY = 1 a write to CMD, KEYk or DATAk raises BUSY and is lost (60_exceptions.md R233). -/
def Obligations.BusyWritesAreLost : Prop :=
  ∀ (s : State) (c : Word) (idx : RegIndex) (w : Word), s.rst = false → s.phase = .busy c →
    3 ≤ idx.toNat → idx.toNat ≤ 11 →
    regWrite idx w s = .next (if s.err = 0#4 then { s with err := 4#4 } else { s with ovf := true })

/-- A step records an error only by a host write outside CTRL and STATUS: reads, CTRL and STATUS writes and completions raise
none (60_exceptions.md R238). -/
def Obligations.OnlyWritesRaiseErrors : Prop :=
  ∀ s t : State, step s = .next t → (t.err ≠ s.err ∧ t.err ≠ 0#4) ∨ (t.ovf = true ∧ s.ovf = false) →
    ∃ (idx : RegIndex) (w : Word), hostMoves s = some (.wr idx w) ∧ idx ≠ 1#6 ∧ idx ≠ 2#6

/-- IRQ = (IE_DONE and DONE) or (IE_ERR and ERR != 0) (60_exceptions.md R240). -/
def Obligations.IrqIsLevelOfEnabledSources : Prop :=
  ∀ s : State, irq s = true ↔ (s.ieDone = true ∧ s.done = true) ∨ (s.ieErr = true ∧ s.err ≠ 0#4)

/-! ## The register window -/

/-- What RegRead returns at every index; a busy read of DATA, SKHI or SKLO returns some word. Nothing moves but `draws`, the
model's own index of the free values (20_memory.md R64; log 3). -/
def Obligations.RegReadReturnsTable : Prop :=
  ∀ s : State, s.rst = false →
    regRead 0#6 s = (0x4E535345#32, s) ∧
    regRead 1#6 s = (BitVec.ofNat 32 (2 * s.ieErr.toNat + s.ieDone.toNat), s) ∧
    regRead 2#6 s = (statusWord s, s) ∧
    regRead 3#6 s = (0#32, s) ∧
    (∀ k : LaneIdx, regRead (BitVec.ofNat 6 (4 + k.val)) s = (0#32, s)) ∧
    (∀ idx : RegIndex, 14 ≤ idx.toNat → regRead idx s = (0#32, s)) ∧
    (s.phase = .idle →
      (∀ k : LaneIdx, regRead (BitVec.ofNat 6 (8 + k.val)) s = (be32 (laneOf s.data k), s)) ∧
      regRead 12#6 s = (s.skhi, s) ∧ regRead 13#6 s = (s.sklo, s)) ∧
    (∀ c, s.phase = .busy c → ∀ idx : RegIndex, 8 ≤ idx.toNat → idx.toNat ≤ 13 →
      ∃ (v : Word) (n : Nat), regRead idx s = (v, { s with draws := n }))

/-- The read view of STATUS, exact whether or not CORE is busy (10_state.md R29). -/
def Obligations.StatusViewHoldsItsFields : Prop :=
  ∀ s : State, s.rst = false →
    (regRead 2#6 s).2 = s ∧
    (regRead 2#6 s).1.toNat =
      (match s.phase with | .idle => 0 | .busy _ => 1) + 2 * s.done.toNat + 8 * s.ovf.toNat + 16 * s.err.toNat +
        256 * s.keyMask.toNat + 4096 * s.dataMask.toNat

/-- The STATUS write action (10_state.md R30). -/
def Obligations.StatusWriteClears : Prop :=
  ∀ (s : State) (w : Word), s.rst = false →
    regWrite 2#6 w s = .next { s with
      done := s.done && !w.getLsbD 1
      err := if w.getLsbD 2 = true then 0#4 else s.err
      ovf := s.ovf && !w.getLsbD 2 }

/-- CTRL takes bits 0 and 1 of a write, busy or not, and reads them back (10_state.md R28). -/
def Obligations.CtrlWriteReadsBack : Prop :=
  State.reset.ieDone = false ∧ State.reset.ieErr = false ∧
  ∀ (s : State) (w : Word), s.rst = false →
    ∃ t, regWrite 1#6 w s = .next t ∧ t = { s with ieDone := w.getLsbD 0, ieErr := w.getLsbD 1 } ∧
      regRead 1#6 t = (w &&& 0x3#32, t)

/-- A KEY word written while idle replaces its four bytes, byte 4k from bits 31:24, and sets its mask bit; while busy
it is refused; KEY always reads 0 (10_state.md R33). -/
def Obligations.KeyWriteReplacesWord : Prop :=
  ∀ (s : State) (k : LaneIdx) (w : Word), s.rst = false →
    regRead (BitVec.ofNat 6 (4 + k.val)) s = (0#32, s) ∧
    (∀ c, s.phase = .busy c → regWrite (BitVec.ofNat 6 (4 + k.val)) w s = .next (raiseError .busy s)) ∧
    (s.phase = .idle → ∃ t, regWrite (BitVec.ofNat 6 (4 + k.val)) w s = .next t ∧
      t = { s with key := t.key, keyMask := s.keyMask ||| (1#4 <<< k.val) } ∧
      laneOf t.key k = #v[w.extractLsb' 24 8, w.extractLsb' 16 8, w.extractLsb' 8 8, w.extractLsb' 0 8] ∧
      ∀ i : Fin 16, i.val / 4 ≠ k.val → t.key[i] = s.key[i])

/-- A DATA word written while idle replaces its four bytes, sets its mask bit and reads back, the other words read as
before; while busy it is refused, and a read returns some word (10_state.md R35). -/
def Obligations.DataWriteReadsBack : Prop :=
  ∀ (s : State) (k : LaneIdx) (w : Word), s.rst = false →
    (∀ c, s.phase = .busy c → regWrite (BitVec.ofNat 6 (8 + k.val)) w s = .next (raiseError .busy s) ∧
      ∃ (v : Word) (n : Nat), regRead (BitVec.ofNat 6 (8 + k.val)) s = (v, { s with draws := n })) ∧
    (s.phase = .idle → regRead (BitVec.ofNat 6 (8 + k.val)) s = (be32 (laneOf s.data k), s)) ∧
    (s.phase = .idle → ∃ t, regWrite (BitVec.ofNat 6 (8 + k.val)) w s = .next t ∧
      t = { s with data := t.data, dataMask := s.dataMask ||| (1#4 <<< k.val) } ∧
      laneOf t.data k = #v[w.extractLsb' 24 8, w.extractLsb' 16 8, w.extractLsb' 8 8, w.extractLsb' 0 8] ∧
      regRead (BitVec.ofNat 6 (8 + k.val)) t = (w, t) ∧
      (∀ j : LaneIdx, j ≠ k → (regRead (BitVec.ofNat 6 (8 + j.val)) t).1 = (regRead (BitVec.ofNat 6 (8 + j.val)) s).1) ∧
      ∀ i : Fin 16, i.val / 4 ≠ k.val → t.data[i] = s.data[i])

/-- Who writes the validity masks: an accepted KEY or DATA write its bit, ENC and DEC the DATAMASK, CLEAR and reset
both, and no other event (10_state.md R31). -/
def Obligations.MasksHaveOnlyTheirWriters : Prop :=
  ∀ s t : State, step s = .next t →
    (resets s → t.keyMask = 0#4 ∧ t.dataMask = 0#4) ∧
    (¬ resets s → completes s = some .clear → t.keyMask = 0#4 ∧ t.dataMask = 0#4) ∧
    (¬ resets s → completes s = some .enc ∨ completes s = some .dec → t.keyMask = s.keyMask ∧ t.dataMask = 0#4) ∧
    (∀ (k : LaneIdx) (w : Word), ¬ resets s → s.phase = .idle →
      (hostMoves s = some (.wr (BitVec.ofNat 6 (4 + k.val)) w) →
        t.keyMask = s.keyMask ||| (1#4 <<< k.val) ∧ t.dataMask = s.dataMask) ∧
      (hostMoves s = some (.wr (BitVec.ofNat 6 (8 + k.val)) w) →
        t.keyMask = s.keyMask ∧ t.dataMask = s.dataMask ||| (1#4 <<< k.val))) ∧
    (t.keyMask ≠ s.keyMask → resets s ∨ completes s = some .clear ∨
      (s.phase = .idle ∧ ∃ (k : LaneIdx) (w : Word), hostMoves s = some (.wr (BitVec.ofNat 6 (4 + k.val)) w))) ∧
    (t.dataMask ≠ s.dataMask → resets s ∨ completes s = some .clear ∨ completes s = some .enc ∨
      completes s = some .dec ∨
      (s.phase = .idle ∧ ∃ (k : LaneIdx) (w : Word), hostMoves s = some (.wr (BitVec.ofNat 6 (8 + k.val)) w)))

/-- Who writes KEY, SKHI and SKLO, DATA and CTRL: KEY changes only by reset, CLEAR and an idle KEY write; SKHI and SKLO
only by reset, CLEAR and SUBKEY; DATA only by reset, an idle DATA write and the completions of ENC, DEC, ENCR, DECR,
LANEF, LANEFI and CLEAR; the enables only by reset and a CTRL write (10_state.md R28, R33, R35, R36, R37;
43_control_commands.md R191; 60_exceptions.md R251). -/
def Obligations.KeyAndSubkeyHaveOnlyTheirWriters : Prop :=
  ∀ s t : State, step s = .next t →
    (t.key ≠ s.key → resets s ∨ completes s = some .clear ∨
      (s.phase = .idle ∧ ∃ (k : LaneIdx) (w : Word), hostMoves s = some (.wr (BitVec.ofNat 6 (4 + k.val)) w))) ∧
    (t.skhi ≠ s.skhi ∨ t.sklo ≠ s.sklo → resets s ∨ completes s = some .clear ∨
      ∃ r, completes s = some (.subkey r)) ∧
    (t.data ≠ s.data → resets s ∨
      (s.phase = .idle ∧ ∃ (k : LaneIdx) (w : Word), hostMoves s = some (.wr (BitVec.ofNat 6 (8 + k.val)) w)) ∨
      completes s = some .enc ∨ completes s = some .dec ∨ completes s = some .clear ∨
      (∃ r, completes s = some (.encr r) ∨ completes s = some (.decr r)) ∨
      ∃ fn k r, completes s = some (.lanef fn k r) ∨ completes s = some (.lanefi fn k r)) ∧
    (t.ieDone ≠ s.ieDone ∨ t.ieErr ≠ s.ieErr → resets s ∨ ∃ w : Word, hostMoves s = some (.wr 1#6 w))

/-- The host cannot read KEY: two states that differ in KEY alone return the same to the host's operation
(10_state.md R33; 60_exceptions.md R246). For a read of DATA, SKHI or SKLO while busy this rests on the model's choice that a
draw depends on its index alone (log 3): the spec puts a draw under no law (00_scope.md R16). -/
def Obligations.OneStepReadsNoKey : Prop :=
  ∀ (s t : State) (k : Block), step s = .next t →
    ∃ t', step { s with key := k } = .next t' ∧ t'.reads = t.reads ∧ irq t' = irq t ∧ statusWord t' = statusWord t

/-- A byte-addressed bridge takes offset 4*idx of the window at the model's CORE_BASE to idx (20_memory.md R63, R68). That an
address outside the window has no index is the model's choice (log 13). -/
def Obligations.BridgeFindsEveryRegister : Prop :=
  (∀ idx : RegIndex, bridgeIndex (busAddress idx) = some idx) ∧
  ∀ a : Nat, a < Config.coreBase ∨ Config.coreBase + 256 ≤ a → bridgeIndex a = none

/-! ## Reset -/

/-- The machine after reset: every field of CORE's record at its reset value, and the window reads as the spec lists
(10_state.md R45; 70_reset_and_hazards.md R260). -/
def Obligations.ResetStateHasResetValues : Prop :=
  State.reset.ieDone = false ∧ State.reset.ieErr = false ∧ State.reset.phase = .idle ∧ State.reset.done = false ∧
    State.reset.ovf = false ∧ State.reset.err = 0#4 ∧ State.reset.keyMask = 0#4 ∧ State.reset.dataMask = 0#4 ∧
    State.reset.key = Vector.replicate 16 0#8 ∧ State.reset.data = Vector.replicate 16 0#8 ∧
    State.reset.skhi = 0#32 ∧ State.reset.sklo = 0#32 ∧ irq State.reset = false ∧
    ∀ idx : RegIndex, regRead idx State.reset = (if idx = 0#6 then 0x4E535345#32 else 0#32, State.reset)

/-- A step with RST asserted, or that asserts it, leaves every field of CORE at its reset value and abandons a command
in progress (70_reset_and_hazards.md R260, R261). -/
def Obligations.ResetStepClearsCore : Prop :=
  ∀ s : State, resets s → ∃ t, step s = .next t ∧
    t.phase = .idle ∧ t.done = false ∧ t.ovf = false ∧ t.err = 0#4 ∧ t.keyMask = 0#4 ∧ t.dataMask = 0#4 ∧
    t.key = Vector.replicate 16 0#8 ∧ t.data = Vector.replicate 16 0#8 ∧ t.skhi = 0#32 ∧ t.sklo = 0#32 ∧
    t.ieDone = false ∧ t.ieErr = false ∧ irq t = false

/-- While RST is asserted a read returns 0 and a write is ignored without error (70_reset_and_hazards.md R263). That this holds of
ID too is the model's choice between R263 and R260, which says that ID reads its constant throughout (log 17). -/
def Obligations.TransactionsDuringResetDoNothing : Prop :=
  ∀ (s : State) (idx : RegIndex) (w : Word), s.rst = true →
    regRead idx s = (0#32, s) ∧ regWrite idx w s = .next s

/-- The invariant holds of the machine after reset. -/
def Obligations.ResetMeetsInvariant : Prop := Inv State.reset

/-- Every step keeps the invariant, from every state that meets it. -/
def Obligations.StepKeepsInvariant : Prop := ∀ s t : State, Inv s → step s = .next t → Inv t

/-- CORE never stops: from every state of the invariant a step goes on (60_exceptions.md R230, R243). -/
def Obligations.InvariantStatesContinue : Prop := ∀ s : State, Inv s → Continues s

/-! ## The key schedule -/

/-- The subkey's bytes: the round constant, then key group (r-1) mod 4 rotated left by (r-1)/4 bytes
(40_key_schedule.md R101, R102, R103). -/
def Obligations.SubkeyBytesFollowGroupAndRotation : Prop :=
  ∀ (c : Cfg) (k : Block) (r : RoundIdx),
    (subkeyOf c k r)[0] = c.rc r ∧
    ∀ i : Fin 4, (subkeyOf c k r)[1 + i.val] =
      k[4 * ((r.number - 1) % 4) + (i.val + (r.number - 1) / 4) % 4]'(by omega)

/-- What the rotation amount reads: bytes 2 and 4 of the subkey and never the constant, so rounds r and r + 8 rotate
alike (40_key_schedule.md R108). -/
def Obligations.RotationAmountIgnoresConstant : Prop :=
  (∀ sk : Subkey, rotOf sk = sk[2].toNat * sk[4].toNat % 32) ∧
  ∀ (c : Cfg) (k : Block) (g : Fin 4),
    let rot := fun n : Fin 16 => rotOf (subkeyOf c k n)
    rot ⟨g.val, by omega⟩ = k[4 * g.val + 1].toNat * k[4 * g.val + 3].toNat % 32 ∧
    rot ⟨4 + g.val, by omega⟩ = k[4 * g.val + 2].toNat * k[4 * g.val].toNat % 32 ∧
    rot ⟨8 + g.val, by omega⟩ = k[4 * g.val + 3].toNat * k[4 * g.val + 1].toNat % 32 ∧
    rot ⟨12 + g.val, by omega⟩ = k[4 * g.val].toNat * k[4 * g.val + 2].toNat % 32 ∧
    ∀ r : Fin 8, rot ⟨r.val, by omega⟩ = rot ⟨r.val + 8, by omega⟩

/-! ## The round functions -/

/-- Every lane function and permutation is undone by its inverse, on both sides (41_round_functions.md R133). -/
def Obligations.LaneFunctionsAreInvertible : Prop :=
  ∀ c : Cfg,
    (∀ (fn : LaneFn) (l : Lane) (sk : Subkey),
      invf c fn (fwd c fn l sk) sk = l ∧ fwd c fn (invf c fn l sk) sk = l) ∧
    (∀ l : Lane, pinInv c (pin c l) = l ∧ pin c (pinInv c l) = l) ∧
    (∀ b : Block, poutInv c (pout c b) = b ∧ pout c (poutInv c b) = b)

/-- PIN and POUT gather, their inverses scatter, by the tables; positions count from 0 here, and bit position 0 is the
lane word's most significant bit (41_round_functions.md R122, R123). -/
def Obligations.PermutationsFollowTheirTables : Prop :=
  ∀ c : Cfg,
    (∀ (l : Lane) (i : Fin 32),
      (be32 (pin c l)).getMsbD i.val = (be32 l).getMsbD (c.pInner i).val ∧
      (be32 (pinInv c l)).getMsbD (c.pInner i).val = (be32 l).getMsbD i.val) ∧
    (∀ (b : Block) (i : Fin 16), (pout c b)[i] = b[c.pOuter i] ∧ (poutInv c b)[c.pOuter i] = b[i])

/-- What SUB, F1, F3 and F4 compute: SUB sends byte i through S(i+1); F1 rotates the substituted lane word right by
ROT_OF(sk), at every amount, with rot 0 being F4 and rot 8, 16 and 24 moving whole bytes; F3 XORs sk[1..4] and then
substitutes; F4 is the substitution for every subkey (41_round_functions.md R121, R125, R129, R131). -/
def Obligations.F1RotatesWholeBytes : Prop :=
  ∀ (c : Cfg) (l : Lane) (sk : Subkey),
    (sub c l = #v[c.s1 l[0], c.s2 l[1], c.s3 l[2], c.s4 l[3]] ∧
      subInv c l = #v[c.s1.symm l[0], c.s2.symm l[1], c.s3.symm l[2], c.s4.symm l[3]]) ∧
    (∀ j : Fin 32, (be32 (f1 c l sk)).getLsbD j.val = (be32 (sub c l)).getLsbD ((j.val + rotOf sk) % 32)) ∧
    (rotOf sk = 0 → f1 c l sk = sub c l ∧ f1 c l sk = f4 c l sk) ∧
    (rotOf sk = 8 → f1 c l sk = rotrBytes 1 (sub c l)) ∧
    (rotOf sk = 16 → f1 c l sk = rotrBytes 2 (sub c l)) ∧
    (rotOf sk = 24 → f1 c l sk = rotrBytes 3 (sub c l)) ∧
    f3 c l sk = #v[c.s1 (l[0] ^^^ sk[1]), c.s2 (l[1] ^^^ sk[2]), c.s3 (l[2] ^^^ sk[3]), c.s4 (l[3] ^^^ sk[4])] ∧
    f3 c #v[sk[1], sk[2], sk[3], sk[4]] sk = sub c (Vector.replicate 4 0x00#8) ∧
    (sk[1] = 0#8 → sk[2] = 0#8 → sk[3] = 0#8 → sk[4] = 0#8 → f3 c l sk = f4 c l sk) ∧
    f4 c l sk = sub c l

/-- F2 is the bit permutation PIN for every subkey; it keeps the all-zero and the all-one lane for every P_INNER, and is
the identity where P_INNER is (41_round_functions.md R127). -/
def Obligations.F2KeepsConstantLanes : Prop :=
  ∀ (c : Cfg) (sk : Subkey),
    (∀ l, f2 c l sk = pin c l) ∧
    f2 c (Vector.replicate 4 0x00#8) sk = Vector.replicate 4 0x00#8 ∧
    f2 c (Vector.replicate 4 0xFF#8) sk = Vector.replicate 4 0xFF#8 ∧
    ((∀ i, c.pInner i = i) → ∀ l, f2 c l sk = l)

/-- LANEFI with the same function, lane and round undoes LANEF, and LANEF undoes LANEFI (41_round_functions.md R133,
R136). -/
def Obligations.LanefiUndoesLanef : Prop :=
  ∀ (c : Cfg) (fn : LaneFn) (k : LaneIdx) (r : RoundIdx) (s : State),
    lanefiEffect c fn k r (lanefEffect c fn k r s) = s ∧ lanefEffect c fn k r (lanefiEffect c fn k r s) = s

/-! ## The block transforms -/

/-- XRC XORs every byte with the constant and is its own inverse (42_block_core.md R160). -/
def Obligations.RoundConstantLayerIsInvolution : Prop :=
  ∀ (b : Block) (x : Byte), (∀ i : Fin 16, (xrc b x)[i] = b[i] ^^^ x) ∧ xrc (xrc b x) x = b

/-- In the four sub-iterations of a round every lane takes every role once, and ends where it began: lane 0 takes F1,
F4, F3, F2, lane 1 F2, F1, F4, F3, lane 2 F3, F2, F1, F4, lane 3 F4, F3, F2, F1 (42_block_core.md R173). -/
def Obligations.EveryLaneTakesEveryRole : Prop :=
  ∀ (c : Cfg) (sk : Subkey) (b : Block),
    (∀ k : LaneIdx, laneOf (subIter c sk b) k =
      fwd c (match k with | 0 => .f2 | 1 => .f3 | 2 => .f4 | 3 => .f1) (laneOf b (k + 1)) sk) ∧
    laneOf (repeatN 4 (subIter c sk) b) 0 = f2 c (f3 c (f4 c (f1 c (laneOf b 0) sk) sk) sk) sk ∧
    laneOf (repeatN 4 (subIter c sk) b) 1 = f3 c (f4 c (f1 c (f2 c (laneOf b 1) sk) sk) sk) sk ∧
    laneOf (repeatN 4 (subIter c sk) b) 2 = f4 c (f1 c (f2 c (f3 c (laneOf b 2) sk) sk) sk) sk ∧
    laneOf (repeatN 4 (subIter c sk) b) 3 = f1 c (f2 c (f3 c (f4 c (laneOf b 3) sk) sk) sk) sk

/-- What a round and its inverse compute, and that they undo each other. The round XORs the constant, permutes the bytes,
and in four sub-iterations sends lane 0 through F1, F4, F3, F2, lane 1 through F2, F1, F4, F3, lane 2 through F3, F2, F1,
F4, lane 3 through F4, F3, F2, F1; the inverse round undoes the lanes first, then the byte permutation, then the XOR
(42_block_core.md R163, R164). -/
def Obligations.RoundIsInvertible : Prop :=
  (∀ (b : Block) (k : LaneIdx) (i : Fin 4), (laneOf b k)[i] = b[4 * k.val + i.val]'(by omega)) ∧
  ∀ (c : Cfg) (b k : Block) (r : RoundIdx),
    let sk := subkeyOf c k r
    let a := pout c (xrc b (c.rc r))
    (laneOf (Machine.round c b k r) 0 = f2 c (f3 c (f4 c (f1 c (laneOf a 0) sk) sk) sk) sk ∧
      laneOf (Machine.round c b k r) 1 = f3 c (f4 c (f1 c (f2 c (laneOf a 1) sk) sk) sk) sk ∧
      laneOf (Machine.round c b k r) 2 = f4 c (f1 c (f2 c (f3 c (laneOf a 2) sk) sk) sk) sk ∧
      laneOf (Machine.round c b k r) 3 = f1 c (f2 c (f3 c (f4 c (laneOf a 3) sk) sk) sk) sk) ∧
    (∃ m : Block, roundInv c b k r = xrc (poutInv c m) (c.rc r) ∧
      laneOf m 0 = f1Inv c (f4Inv c (f3Inv c (f2Inv c (laneOf b 0) sk) sk) sk) sk ∧
      laneOf m 1 = f2Inv c (f1Inv c (f4Inv c (f3Inv c (laneOf b 1) sk) sk) sk) sk ∧
      laneOf m 2 = f3Inv c (f2Inv c (f1Inv c (f4Inv c (laneOf b 2) sk) sk) sk) sk ∧
      laneOf m 3 = f4Inv c (f3Inv c (f2Inv c (f1Inv c (laneOf b 3) sk) sk) sk) sk) ∧
    roundInv c (Machine.round c b k r) k r = b ∧ Machine.round c (roundInv c b k r) k r = b

/-- Decryption undoes encryption, and encryption decryption, for every configuration, block and key (42_block_core.md
R172). -/
def Obligations.DecryptUndoesEncrypt : Prop :=
  ∀ (c : Cfg) (b k : Block), decrypt c (encrypt c b k) k = b ∧ encrypt c (decrypt c b k) k = b

/-- ENC is ENCR 1 to ENCR 16 in order and DEC is DECR 16 down to DECR 1, but for DATAMASK, which only ENC and DEC
clear (42_block_core.md R171). -/
def Obligations.EncIsTheSixteenRounds : Prop :=
  ∀ (c : Cfg) (s : State),
    encEffect c s =
      { (List.finRange 16).foldl (fun u r => encrEffect c r u) s with dataMask := 0#4 } ∧
    decEffect c s =
      { (List.finRange 16).reverse.foldl (fun u r => decrEffect c r u) s with dataMask := 0#4 } ∧
    ((List.finRange 16).foldl (fun u r => encrEffect c r u) s).dataMask = s.dataMask ∧
    ((List.finRange 16).reverse.foldl (fun u r => decrEffect c r u) s).dataMask = s.dataMask

/-! ## The host's driver -/

/-- pad appends 1, 2, ..., pad_len, so that the last byte is pad_len and the length a multiple of 16
(44_host_driver.md R203). -/
def Obligations.PadEndsInItsLength : Prop :=
  ∀ d : List Byte,
    (pad d).take d.length = d ∧
    (pad d).length = 16 * (d.length / 16 + 1) ∧
    (∀ j : Nat, j < 16 - d.length % 16 → (pad d)[d.length + j]? = some (BitVec.ofNat 8 (j + 1))) ∧
    (pad d).getLast? = some (BitVec.ofNat 8 (16 - d.length % 16))

/-- unpad trusts the last byte as the count and refuses one that exceeds the length (44_host_driver.md R204). -/
def Obligations.UnpadTrustsTheCount : Prop :=
  ∀ (xs : List Byte) (p : Byte),
    unpad (xs ++ [p]) =
      if xs.length + 1 < p.toNat then .error .padLength else .ok ((xs ++ [p]).take (xs.length + 1 - p.toNat))

/-- The stream laws (44_host_driver.md R213). -/
def Obligations.StreamLawsHold : Prop :=
  ∀ (c : Cfg) (k : Block) (d : List Byte),
    unpad (pad d) = .ok d ∧
    decryptStream c (encryptStream c d k) k = .ok d ∧
    (encryptStream c d k).length = 16 * (d.length / 16 + 1) ∧
    (encryptStream c [] k).length = 16

/-- A stream is the blockwise transform, and so its blocks are independent: block i of a string is its bytes 16i to
16i+15; block i of a ciphertext is the encryption of block i of the padded input; decrypting a positive multiple of 16
bytes is unpad of the string of decrypted blocks, and any other length is refused (44_host_driver.md R205, R206, R210). -/
def Obligations.BlocksAreIndependent : Prop :=
  (∀ (d : List Byte) (i : Nat) (b : Block),
    (blocksOf d)[i]? = some b ↔ ∀ j : Fin 16, d[16 * i + j.val]? = some b[j]) ∧
  ∀ (c : Cfg) (k : Block) (d e : List Byte) (i : Nat),
    (encryptStream c d k).length = (pad d).length ∧
    (blocksOf (encryptStream c d k))[i]? = ((blocksOf (pad d))[i]?).map (fun b => encrypt c b k) ∧
    (d.length ≠ 0 → d.length % 16 = 0 → ∃ q : List Byte,
      decryptStream c d k = unpad q ∧ q.length = d.length ∧
        ∀ n : Nat, (blocksOf q)[n]? = ((blocksOf d)[n]?).map (fun b => decrypt c b k)) ∧
    (d.length = 0 ∨ d.length % 16 ≠ 0 → decryptStream c d k = .error .inputLength) ∧
    ((blocksOf (pad d))[i]? = (blocksOf (pad e))[i]? →
      (blocksOf (encryptStream c d k))[i]? = (blocksOf (encryptStream c e k))[i]?) ∧
    ((blocksOf d)[i]? = (blocksOf e)[i]? →
      (blocksOf (joinBlocks ((blocksOf d).map fun b => decrypt c b k)))[i]? =
        (blocksOf (joinBlocks ((blocksOf e).map fun b => decrypt c b k)))[i]?)

/-- The driver's guards: a key that is not 16 bytes, and a decrypt input whose length is no positive multiple of 16
(44_host_driver.md R201, R202, R206). -/
def Obligations.DriverRefusesBadLengths : Prop :=
  ∀ (c : Cfg) (buffer key : List Byte) (dir : Direction) (scrub : Bool),
    (key.length ≠ 16 → transform c buffer key dir = .error .keyLength ∧
      driveTransform buffer key dir scrub = .error .keyLength) ∧
    (key.length = 16 → buffer.length = 0 ∨ buffer.length % 16 ≠ 0 →
      transform c buffer key .decrypt = .error .inputLength ∧
      driveTransform buffer key .decrypt scrub = .error .inputLength)

/-- Driving CORE gives the transform. One block, on an idle CORE with a loaded key and no error: the driver's transactions
run to their end, and the four words it reads back are the transform of the block. A whole call, on any idle CORE,
whatever was read before and whether or not an earlier call failed: it runs to its end and returns what transform does
(44_host_driver.md R201, R207; where a call begins and ends in the host's list is log 12). -/
def Obligations.DriverTransformsOneBlock : Prop :=
  (∀ (s : State) (dir : Direction) (x : Block) (rest : List HostOp), s.rst = false → s.phase = .idle →
    s.err = 0#4 → s.keyMask = 0b1111#4 → s.host = driveBlock dir x ++ rest →
    ∃ (n : Nat) (t : State), Host.Core.run Sys2Proof.core n s = .next t ∧
      t.host = rest ∧ t.phase = .idle ∧ t.done = true ∧ t.err = 0#4 ∧ t.ovf = s.ovf ∧ t.key = s.key ∧
      t.keyMask = s.keyMask ∧ t.dataMask = 0#4 ∧ t.failure = s.failure ∧
      outputBytes (t.reads.take 4) =
        (match dir with
          | .encrypt => encrypt Config.cfg x s.key
          | .decrypt => decrypt Config.cfg x s.key).toList) ∧
  ∀ (s : State) (buffer key : List Byte) (dir : Direction) (scrub : Bool) (rest : List HostOp), s.rst = false →
    s.phase = .idle → s.host = driveCall buffer key dir scrub ++ rest →
    ∃ (n : Nat) (t : State), Host.Core.run Sys2Proof.core n s = .next t ∧
      t.host = rest ∧ t.phase = .idle ∧ t.result = some (transform Config.cfg buffer key dir)

/-! ## Building a CORE, and the assembler -/

/-- A CORE is built from exactly the tables that pass WF(CFG), and its tables are those (00_scope.md R11; 10_state.md
R21 to R24). -/
def Obligations.BuildAcceptsExactlyWellFormedTables : Prop :=
  ∀ t : CfgTables, ((∃ c, buildCfg t = .ok c) ↔ t.WF) ∧
    ∀ c, buildCfg t = .ok c →
      (∀ x : Byte, t.s1[x.toNat]? = some (c.s1 x) ∧ t.s2[x.toNat]? = some (c.s2 x) ∧
        t.s3[x.toNat]? = some (c.s3 x) ∧ t.s4[x.toNat]? = some (c.s4 x)) ∧
      (∀ i : Fin 16, t.pOuter[i.val]? = some ((c.pOuter i).val + 1) ∧ t.rc[i.val]? = some (c.rc i)) ∧
      (∀ i : Fin 32, t.pInner[i.val]? = some ((c.pInner i).val + 1))

/-- The assembler refuses an operand outside its range and gives the word of the table otherwise (30_encoding.md
R89). -/
def Obligations.AssemblerGivesTableWords : Prop :=
  (assembleCmd .nop).map encode = some 0x00000000#32 ∧
  (assembleCmd .enc).map encode = some 0x00000001#32 ∧
  (assembleCmd .dec).map encode = some 0x00000002#32 ∧
  (assembleCmd .clear).map encode = some 0x00000007#32 ∧
  (∀ r : Nat,
    (assembleCmd (.encr r)).map encode =
      (if 1 ≤ r ∧ r ≤ 16 then some (0x00000003#32 ||| (BitVec.ofNat 32 (r - 1) <<< 4)) else none) ∧
    (assembleCmd (.decr r)).map encode =
      (if 1 ≤ r ∧ r ≤ 16 then some (0x00000004#32 ||| (BitVec.ofNat 32 (r - 1) <<< 4)) else none) ∧
    (assembleCmd (.subkey r)).map encode =
      (if 1 ≤ r ∧ r ≤ 16 then some (0x00000005#32 ||| (BitVec.ofNat 32 (r - 1) <<< 4)) else none)) ∧
  (∀ n k r : Nat,
    (assembleCmd (.lanef n k r)).map encode =
      (if 1 ≤ r ∧ r ≤ 16 ∧ 1 ≤ n ∧ n ≤ 4 ∧ k ≤ 3 then
        some (0x00000006#32 ||| (BitVec.ofNat 32 (r - 1) <<< 4) ||| (BitVec.ofNat 32 (n - 1) <<< 8) |||
          (BitVec.ofNat 32 k <<< 12))
      else none) ∧
    (assembleCmd (.lanefi n k r)).map encode =
      (if 1 ≤ r ∧ r ≤ 16 ∧ 1 ≤ n ∧ n ≤ 4 ∧ k ≤ 3 then
        some (0x00000406#32 ||| (BitVec.ofNat 32 (r - 1) <<< 4) ||| (BitVec.ofNat 32 (n - 1) <<< 8) |||
          (BitVec.ofNat 32 k <<< 12))
      else none))
end

