-- ==== Sys2Proof/Laws/Bytes.lean ====
section
/-! SUPPORT. What the byte, word and lane operations do, entry by entry. -/

namespace Sys2Proof.Machine

theorem be_nil : be [] = 0 := rfl

/-- BE of a byte sequence with one more byte at its end (00_scope.md R14). -/
theorem be_concat (bs : List Byte) (b : Byte) : be (bs ++ [b]) = be bs * 256 + b.toNat := by
  simp [be, List.foldl_append]

@[simp] theorem rotlBytes_getElem {len : Nat} (n : Nat) (b : Vector Byte len) (i : Nat) (h : i < len) :
    (rotlBytes n b)[i] = b[(i + n) % len]'(Nat.mod_lt _ (by omega)) := by
  simp [rotlBytes]

@[simp] theorem laneOf_getElem (b : Block) (k : LaneIdx) (i : Nat) (h : i < 4) :
    (laneOf b k)[i] = b[4 * k.val + i]'(by omega) := by
  simp [laneOf]

@[simp] theorem setLane_getElem (b : Block) (k : LaneIdx) (l : Lane) (i : Nat) (h : i < 16) :
    (setLane b k l)[i] = if i / 4 = k.val then l[i % 4]'(Nat.mod_lt _ (by decide)) else b[i] := by
  simp [setLane]

/-- Reading the lane just written. -/
@[simp] theorem laneOf_setLane_same (b : Block) (k : LaneIdx) (l : Lane) : laneOf (setLane b k l) k = l := by
  apply Vector.ext
  intro i h
  have hd : (4 * k.val + i) / 4 = k.val := by omega
  have hm : (4 * k.val + i) % 4 = i := by omega
  simp [hd, hm]

/-- Reading a lane that was not written. -/
theorem laneOf_setLane_other (b : Block) (j k : LaneIdx) (l : Lane) (hne : j ≠ k) :
    laneOf (setLane b k l) j = laneOf b j := by
  apply Vector.ext
  intro i h
  have hd : ¬ (4 * j.val + i) / 4 = k.val := by
    have hv : j.val ≠ k.val := fun e => hne (Fin.ext e)
    omega
  simp [hd]

/-- Two blocks with the same four lanes are equal. -/
theorem block_ext_lanes (a b : Block) (h : ∀ k : LaneIdx, laneOf a k = laneOf b k) : a = b := by
  apply Vector.ext
  intro i hi
  have hk := h ⟨i / 4, by omega⟩
  have he := congrArg (fun l : Lane => l[i % 4]'(Nat.mod_lt _ (by decide))) hk
  have hi4 : 4 * (i / 4) + i % 4 = i := by omega
  simpa [hi4] using he

/-- Writing back a lane's own value, or writing it twice. -/
@[simp] theorem setLane_setLane (b : Block) (k : LaneIdx) (l m : Lane) :
    setLane (setLane b k l) k m = setLane b k m := by
  apply Vector.ext
  intro i hi
  simp only [setLane_getElem]
  split <;> rfl

@[simp] theorem setLane_laneOf (b : Block) (k : LaneIdx) : setLane b k (laneOf b k) = b := by
  apply block_ext_lanes
  intro j
  by_cases hj : j = k
  · subst hj
    simp
  · exact laneOf_setLane_other b j k _ hj

/-- The lanes of a block put together from lanes. -/
theorem laneOf_joinLanes (l0 l1 l2 l3 : Lane) :
    laneOf (joinLanes l0 l1 l2 l3) 0 = l0 ∧ laneOf (joinLanes l0 l1 l2 l3) 1 = l1 ∧
      laneOf (joinLanes l0 l1 l2 l3) 2 = l2 ∧ laneOf (joinLanes l0 l1 l2 l3) 3 = l3 := by
  refine ⟨?_, ?_, ?_, ?_⟩ <;>
    (apply Vector.ext
     intro i hi
     have hcases : i = 0 ∨ i = 1 ∨ i = 2 ∨ i = 3 := by omega
     rcases hcases with rfl | rfl | rfl | rfl <;> simp [joinLanes])

/-- A block rotated by a lane, left and right (00_scope.md R15). -/
theorem laneOf_rotlBytes_four (b : Block) (k : LaneIdx) : laneOf (rotlBytes 4 b) k = laneOf b (k + 1) := by
  apply Vector.ext
  intro i hi
  simp only [laneOf_getElem, rotlBytes, Vector.getElem_ofFn]
  congr 1
  fin_cases k <;> simp <;> omega

theorem laneOf_rotrBytes_four (b : Block) (k : LaneIdx) : laneOf (rotrBytes 4 b) k = laneOf b (k + 3) := by
  apply Vector.ext
  intro i hi
  simp only [laneOf_getElem, rotrBytes, rotlBytes, Vector.getElem_ofFn]
  congr 1
  fin_cases k <;> simp <;> omega

/-- The bits of four bytes put together. -/
theorem append4_getLsbD (a b c d : Byte) (j : Nat) : (a ++ b ++ c ++ d : BitVec 32).getLsbD j =
    if j < 8 then d.getLsbD j else if j < 16 then c.getLsbD (j - 8)
    else if j < 24 then b.getLsbD (j - 16) else a.getLsbD (j - 24) := by
  show BitVec.getLsbD (w := 8 + 8 + 8 + 8) (a ++ b ++ c ++ d) j = _
  simp only [BitVec.getLsbD_append]
  split_ifs <;> first | rfl | omega

/-- The bits of a lane word: byte 0 is bits 31:24, byte 3 bits 7:0 (20_memory.md R62). -/
theorem be32_getLsbD (l : Lane) (j : Nat) : (be32 l).getLsbD j =
    if j < 8 then l[3].getLsbD j else if j < 16 then l[2].getLsbD (j - 8)
    else if j < 24 then l[1].getLsbD (j - 16) else l[0].getLsbD (j - 24) := append4_getLsbD ..

/-- BYTES_4(BE32(l)) = l (00_scope.md R14). -/
@[simp] theorem bytes4_be32 (l : Lane) : bytes4 (be32 l) = l := by
  apply Vector.ext
  intro i hi
  have hcases : i = 0 ∨ i = 1 ∨ i = 2 ∨ i = 3 := by omega
  rcases hcases with rfl | rfl | rfl | rfl <;>
    (simp only [bytes4, Vector.getElem_mk, List.getElem_toArray, List.getElem_cons_zero, List.getElem_cons_succ]
     apply BitVec.eq_of_getLsbD_eq
     intro j hj
     simp only [BitVec.getLsbD_extractLsb', be32_getLsbD, hj, decide_true, Bool.true_and]
     split_ifs <;> first | omega | (congr 1; try omega))

/-- BE32(BYTES_4(w)) = w (00_scope.md R14). -/
@[simp] theorem be32_bytes4 (w : Word) : be32 (bytes4 w) = w := by
  apply BitVec.eq_of_getLsbD_eq
  intro j hj
  rw [be32_getLsbD]
  simp only [bytes4, Vector.getElem_mk, List.getElem_toArray, List.getElem_cons_zero, List.getElem_cons_succ,
    BitVec.getLsbD_extractLsb']
  split_ifs <;> simp_all <;> omega

/-- A register word just written is read back (10_state.md R35). -/
@[simp] theorem wordOf_setWord_same (b : Block) (k : LaneIdx) (w : Word) : wordOf (setWord b k w) k = w := by
  simp [wordOf, setWord]

/-- The other register words stay as they were. -/
theorem wordOf_setWord_other (b : Block) (j k : LaneIdx) (w : Word) (hne : j ≠ k) :
    wordOf (setWord b k w) j = wordOf b j := by
  simp [wordOf, setWord, laneOf_setLane_other b j k _ hne]

@[simp] theorem laneOf_zeroBlock (k : LaneIdx) : laneOf zeroBlock k = Vector.replicate 4 0#8 := by
  apply Vector.ext
  intro i hi
  simp [zeroBlock]

@[simp] theorem wordOf_zeroBlock (k : LaneIdx) : wordOf zeroBlock k = 0#32 := by
  simp only [wordOf, laneOf_zeroBlock]
  decide

/-- rotr32 is the library's rotation (00_scope.md R15). -/
theorem rotr32_eq_rotateRight (w : Word) (n : Nat) : rotr32 w n = w.rotateRight (n % 32) := by
  unfold rotr32
  split
  · next h => simp [h, BitVec.rotateRight, BitVec.rotateRightAux]
  · simp [BitVec.rotateRight, BitVec.rotateRightAux]

end Sys2Proof.Machine
end

