-- ==== Sys2Proof/Laws/Fields.lean ====
section
/-! SUPPORT. The fields of a command word: packing and unpacking them, and a word as the number its fields make
(30_encoding.md R81). -/

namespace Sys2Proof

/-- Two words with the same fields are equal: the fields are all 32 bits. -/
theorem word_ext_fields (v w : Word) (hop : fieldOp v = fieldOp w) (hridx : fieldRidx v = fieldRidx w)
    (hfn : fieldFn v = fieldFn w) (hinv : fieldInv v = fieldInv w)
    (h11 : fieldReserved11 v = fieldReserved11 w) (hlane : fieldLane v = fieldLane w)
    (h31 : fieldReserved31 v = fieldReserved31 w) : v = w := by
  apply BitVec.eq_of_toNat_eq
  simp only [fieldOp, fieldRidx, fieldFn, fieldInv, fieldReserved11, fieldLane, fieldReserved31, ← BitVec.toNat_inj,
    BitVec.extractLsb'_toNat, Nat.shiftRight_eq_div_pow] at *
  omega

/-- Bits put above the others are added to them. -/
theorem or_mul_two_pow (a b n : Nat) (h : a < 2 ^ n) : a ||| b * 2 ^ n = a + b * 2 ^ n := by
  rw [Nat.mul_comm, Nat.or_comm, ← Nat.two_pow_add_eq_or_of_lt h, Nat.add_comm]

/-- The number a packed word is (30_encoding.md R81). -/
theorem packWord_toNat (op ridx : BitVec 4) (fn : BitVec 2) (inv : BitVec 1) (lane : BitVec 2) :
    (packWord op ridx fn inv lane).toNat =
      op.toNat + 2 ^ 4 * ridx.toNat + 2 ^ 8 * fn.toNat + 2 ^ 10 * inv.toNat + 2 ^ 12 * lane.toNat := by
  have h1 := op.isLt
  have h2 := ridx.isLt
  have h3 := fn.isLt
  have h4 := inv.isLt
  have h5 := lane.isLt
  simp only [packWord, BitVec.toNat_or, BitVec.toNat_shiftLeft, BitVec.toNat_setWidth, Nat.shiftLeft_eq]
  rw [Nat.mod_eq_of_lt (a := op.toNat) (by omega), Nat.mod_eq_of_lt (a := ridx.toNat) (by omega),
    Nat.mod_eq_of_lt (a := fn.toNat) (by omega), Nat.mod_eq_of_lt (a := inv.toNat) (by omega),
    Nat.mod_eq_of_lt (a := lane.toNat) (by omega), Nat.mod_eq_of_lt (a := _ * 2 ^ 4) (by omega),
    Nat.mod_eq_of_lt (a := _ * 2 ^ 8) (by omega), Nat.mod_eq_of_lt (a := _ * 2 ^ 10) (by omega),
    Nat.mod_eq_of_lt (a := _ * 2 ^ 12) (by omega)]
  rw [or_mul_two_pow _ _ 4 (by omega), or_mul_two_pow _ _ 8 (by omega), or_mul_two_pow _ _ 10 (by omega),
    or_mul_two_pow _ _ 12 (by omega)]
  omega

/-- The fields of a packed word. -/
theorem fields_packWord (op ridx : BitVec 4) (fn : BitVec 2) (inv : BitVec 1) (lane : BitVec 2) :
    fieldOp (packWord op ridx fn inv lane) = op ∧ fieldRidx (packWord op ridx fn inv lane) = ridx ∧
      fieldFn (packWord op ridx fn inv lane) = fn ∧ fieldInv (packWord op ridx fn inv lane) = inv ∧
      fieldLane (packWord op ridx fn inv lane) = lane ∧ fieldReserved11 (packWord op ridx fn inv lane) = 0#1 ∧
      fieldReserved31 (packWord op ridx fn inv lane) = 0#18 := by
  have h1 := op.isLt
  have h2 := ridx.isLt
  have h3 := fn.isLt
  have h4 := inv.isLt
  have h5 := lane.isLt
  simp only [fieldOp, fieldRidx, fieldFn, fieldInv, fieldReserved11, fieldLane, fieldReserved31, ← BitVec.toNat_inj,
    BitVec.extractLsb'_toNat, Nat.shiftRight_eq_div_pow, packWord_toNat, BitVec.toNat_ofNat]
  omega
/-- FN as a function and as a field. -/
theorem fnOfField_field (b : BitVec 2) : (fnOfField b).field = b := by revert b; decide

theorem fnOfField_of_field (fn : LaneFn) : fnOfField fn.field = fn := by cases fn <;> decide

end Sys2Proof
end

