-- ==== Sys2Proof/Laws/State.lean ====
section
/-! SUPPORT. What each update of State leaves in each field: one lemma a field. -/

namespace Sys2Proof.Machine

/-! acknowledge -/

@[simp] theorem acknowledge_ieDone (w : Word) (s : State) : (acknowledge w s).ieDone = s.ieDone := by simp only [acknowledge]
@[simp] theorem acknowledge_ieErr (w : Word) (s : State) : (acknowledge w s).ieErr = s.ieErr := by simp only [acknowledge]
@[simp] theorem acknowledge_phase (w : Word) (s : State) : (acknowledge w s).phase = s.phase := by simp only [acknowledge]
@[simp] theorem acknowledge_done (w : Word) (s : State) : (acknowledge w s).done = (if w.getLsbD 1 then false else s.done) := by simp only [acknowledge]
@[simp] theorem acknowledge_ovf (w : Word) (s : State) : (acknowledge w s).ovf = (if w.getLsbD 2 then false else s.ovf) := by simp only [acknowledge]
@[simp] theorem acknowledge_err (w : Word) (s : State) : (acknowledge w s).err = (if w.getLsbD 2 then 0#4 else s.err) := by simp only [acknowledge]
@[simp] theorem acknowledge_keyMask (w : Word) (s : State) : (acknowledge w s).keyMask = s.keyMask := by simp only [acknowledge]
@[simp] theorem acknowledge_dataMask (w : Word) (s : State) : (acknowledge w s).dataMask = s.dataMask := by simp only [acknowledge]
@[simp] theorem acknowledge_key (w : Word) (s : State) : (acknowledge w s).key = s.key := by simp only [acknowledge]
@[simp] theorem acknowledge_data (w : Word) (s : State) : (acknowledge w s).data = s.data := by simp only [acknowledge]
@[simp] theorem acknowledge_skhi (w : Word) (s : State) : (acknowledge w s).skhi = s.skhi := by simp only [acknowledge]
@[simp] theorem acknowledge_sklo (w : Word) (s : State) : (acknowledge w s).sklo = s.sklo := by simp only [acknowledge]
@[simp] theorem acknowledge_rst (w : Word) (s : State) : (acknowledge w s).rst = s.rst := by simp only [acknowledge]
@[simp] theorem acknowledge_lat (w : Word) (s : State) : (acknowledge w s).lat = s.lat := by simp only [acknowledge]
@[simp] theorem acknowledge_draws (w : Word) (s : State) : (acknowledge w s).draws = s.draws := by simp only [acknowledge]
@[simp] theorem acknowledge_host (w : Word) (s : State) : (acknowledge w s).host = s.host := by simp only [acknowledge]
@[simp] theorem acknowledge_reads (w : Word) (s : State) : (acknowledge w s).reads = s.reads := by simp only [acknowledge]
@[simp] theorem acknowledge_failure (w : Word) (s : State) : (acknowledge w s).failure = s.failure := by simp only [acknowledge]
@[simp] theorem acknowledge_callMark (w : Word) (s : State) : (acknowledge w s).callMark = s.callMark := by simp only [acknowledge]
@[simp] theorem acknowledge_result (w : Word) (s : State) : (acknowledge w s).result = s.result := by simp only [acknowledge]

/-! ctrlWrite -/

@[simp] theorem ctrlWrite_ieDone (w : Word) (s : State) : (ctrlWrite w s).ieDone = w.getLsbD 0 := by simp only [ctrlWrite]
@[simp] theorem ctrlWrite_ieErr (w : Word) (s : State) : (ctrlWrite w s).ieErr = w.getLsbD 1 := by simp only [ctrlWrite]
@[simp] theorem ctrlWrite_phase (w : Word) (s : State) : (ctrlWrite w s).phase = s.phase := by simp only [ctrlWrite]
@[simp] theorem ctrlWrite_done (w : Word) (s : State) : (ctrlWrite w s).done = s.done := by simp only [ctrlWrite]
@[simp] theorem ctrlWrite_ovf (w : Word) (s : State) : (ctrlWrite w s).ovf = s.ovf := by simp only [ctrlWrite]
@[simp] theorem ctrlWrite_err (w : Word) (s : State) : (ctrlWrite w s).err = s.err := by simp only [ctrlWrite]
@[simp] theorem ctrlWrite_keyMask (w : Word) (s : State) : (ctrlWrite w s).keyMask = s.keyMask := by simp only [ctrlWrite]
@[simp] theorem ctrlWrite_dataMask (w : Word) (s : State) : (ctrlWrite w s).dataMask = s.dataMask := by simp only [ctrlWrite]
@[simp] theorem ctrlWrite_key (w : Word) (s : State) : (ctrlWrite w s).key = s.key := by simp only [ctrlWrite]
@[simp] theorem ctrlWrite_data (w : Word) (s : State) : (ctrlWrite w s).data = s.data := by simp only [ctrlWrite]
@[simp] theorem ctrlWrite_skhi (w : Word) (s : State) : (ctrlWrite w s).skhi = s.skhi := by simp only [ctrlWrite]
@[simp] theorem ctrlWrite_sklo (w : Word) (s : State) : (ctrlWrite w s).sklo = s.sklo := by simp only [ctrlWrite]
@[simp] theorem ctrlWrite_rst (w : Word) (s : State) : (ctrlWrite w s).rst = s.rst := by simp only [ctrlWrite]
@[simp] theorem ctrlWrite_lat (w : Word) (s : State) : (ctrlWrite w s).lat = s.lat := by simp only [ctrlWrite]
@[simp] theorem ctrlWrite_draws (w : Word) (s : State) : (ctrlWrite w s).draws = s.draws := by simp only [ctrlWrite]
@[simp] theorem ctrlWrite_host (w : Word) (s : State) : (ctrlWrite w s).host = s.host := by simp only [ctrlWrite]
@[simp] theorem ctrlWrite_reads (w : Word) (s : State) : (ctrlWrite w s).reads = s.reads := by simp only [ctrlWrite]
@[simp] theorem ctrlWrite_failure (w : Word) (s : State) : (ctrlWrite w s).failure = s.failure := by simp only [ctrlWrite]
@[simp] theorem ctrlWrite_callMark (w : Word) (s : State) : (ctrlWrite w s).callMark = s.callMark := by simp only [ctrlWrite]
@[simp] theorem ctrlWrite_result (w : Word) (s : State) : (ctrlWrite w s).result = s.result := by simp only [ctrlWrite]

/-! resetCore -/

@[simp] theorem resetCore_ieDone (s : State) : (resetCore s).ieDone = State.reset.ieDone := rfl
@[simp] theorem resetCore_ieErr (s : State) : (resetCore s).ieErr = State.reset.ieErr := rfl
@[simp] theorem resetCore_phase (s : State) : (resetCore s).phase = State.reset.phase := rfl
@[simp] theorem resetCore_done (s : State) : (resetCore s).done = State.reset.done := rfl
@[simp] theorem resetCore_ovf (s : State) : (resetCore s).ovf = State.reset.ovf := rfl
@[simp] theorem resetCore_err (s : State) : (resetCore s).err = State.reset.err := rfl
@[simp] theorem resetCore_keyMask (s : State) : (resetCore s).keyMask = State.reset.keyMask := rfl
@[simp] theorem resetCore_dataMask (s : State) : (resetCore s).dataMask = State.reset.dataMask := rfl
@[simp] theorem resetCore_key (s : State) : (resetCore s).key = State.reset.key := rfl
@[simp] theorem resetCore_data (s : State) : (resetCore s).data = State.reset.data := rfl
@[simp] theorem resetCore_skhi (s : State) : (resetCore s).skhi = State.reset.skhi := rfl
@[simp] theorem resetCore_sklo (s : State) : (resetCore s).sklo = State.reset.sklo := rfl
@[simp] theorem resetCore_rst (s : State) : (resetCore s).rst = s.rst := rfl
@[simp] theorem resetCore_lat (s : State) : (resetCore s).lat = State.reset.lat := rfl
@[simp] theorem resetCore_draws (s : State) : (resetCore s).draws = s.draws := rfl
@[simp] theorem resetCore_host (s : State) : (resetCore s).host = s.host := rfl
@[simp] theorem resetCore_reads (s : State) : (resetCore s).reads = s.reads := rfl
@[simp] theorem resetCore_failure (s : State) : (resetCore s).failure = s.failure := rfl
@[simp] theorem resetCore_callMark (s : State) : (resetCore s).callMark = s.callMark := rfl
@[simp] theorem resetCore_result (s : State) : (resetCore s).result = s.result := rfl

/-! accept -/

@[simp] theorem accept_ieDone (w : Word) (s : State) : (accept w s).ieDone = s.ieDone := by simp only [accept]
@[simp] theorem accept_ieErr (w : Word) (s : State) : (accept w s).ieErr = s.ieErr := by simp only [accept]
@[simp] theorem accept_phase (w : Word) (s : State) : (accept w s).phase = .busy w := by simp only [accept]
@[simp] theorem accept_done (w : Word) (s : State) : (accept w s).done = false := by simp only [accept]
@[simp] theorem accept_ovf (w : Word) (s : State) : (accept w s).ovf = s.ovf := by simp only [accept]
@[simp] theorem accept_err (w : Word) (s : State) : (accept w s).err = s.err := by simp only [accept]
@[simp] theorem accept_keyMask (w : Word) (s : State) : (accept w s).keyMask = s.keyMask := by simp only [accept]
@[simp] theorem accept_dataMask (w : Word) (s : State) : (accept w s).dataMask = s.dataMask := by simp only [accept]
@[simp] theorem accept_key (w : Word) (s : State) : (accept w s).key = s.key := by simp only [accept]
@[simp] theorem accept_data (w : Word) (s : State) : (accept w s).data = s.data := by simp only [accept]
@[simp] theorem accept_skhi (w : Word) (s : State) : (accept w s).skhi = s.skhi := by simp only [accept]
@[simp] theorem accept_sklo (w : Word) (s : State) : (accept w s).sklo = s.sklo := by simp only [accept]
@[simp] theorem accept_rst (w : Word) (s : State) : (accept w s).rst = s.rst := by simp only [accept]
@[simp] theorem accept_lat (w : Word) (s : State) : (accept w s).lat = Config.latency s.draws := by simp only [accept]
@[simp] theorem accept_draws (w : Word) (s : State) : (accept w s).draws = s.draws + 1 := by simp only [accept]
@[simp] theorem accept_host (w : Word) (s : State) : (accept w s).host = s.host := by simp only [accept]
@[simp] theorem accept_reads (w : Word) (s : State) : (accept w s).reads = s.reads := by simp only [accept]
@[simp] theorem accept_failure (w : Word) (s : State) : (accept w s).failure = s.failure := by simp only [accept]
@[simp] theorem accept_callMark (w : Word) (s : State) : (accept w s).callMark = s.callMark := by simp only [accept]
@[simp] theorem accept_result (w : Word) (s : State) : (accept w s).result = s.result := by simp only [accept]

/-! complete -/

@[simp] theorem complete_ieDone (e : State → State) (s : State) : (complete e s).ieDone = (e s).ieDone := by simp only [complete]
@[simp] theorem complete_ieErr (e : State → State) (s : State) : (complete e s).ieErr = (e s).ieErr := by simp only [complete]
@[simp] theorem complete_phase (e : State → State) (s : State) : (complete e s).phase = .idle := by simp only [complete]
@[simp] theorem complete_done (e : State → State) (s : State) : (complete e s).done = true := by simp only [complete]
@[simp] theorem complete_ovf (e : State → State) (s : State) : (complete e s).ovf = (e s).ovf := by simp only [complete]
@[simp] theorem complete_err (e : State → State) (s : State) : (complete e s).err = (e s).err := by simp only [complete]
@[simp] theorem complete_keyMask (e : State → State) (s : State) : (complete e s).keyMask = (e s).keyMask := by simp only [complete]
@[simp] theorem complete_dataMask (e : State → State) (s : State) : (complete e s).dataMask = (e s).dataMask := by simp only [complete]
@[simp] theorem complete_key (e : State → State) (s : State) : (complete e s).key = (e s).key := by simp only [complete]
@[simp] theorem complete_data (e : State → State) (s : State) : (complete e s).data = (e s).data := by simp only [complete]
@[simp] theorem complete_skhi (e : State → State) (s : State) : (complete e s).skhi = (e s).skhi := by simp only [complete]
@[simp] theorem complete_sklo (e : State → State) (s : State) : (complete e s).sklo = (e s).sklo := by simp only [complete]
@[simp] theorem complete_rst (e : State → State) (s : State) : (complete e s).rst = (e s).rst := by simp only [complete]
@[simp] theorem complete_lat (e : State → State) (s : State) : (complete e s).lat = (e s).lat := by simp only [complete]
@[simp] theorem complete_draws (e : State → State) (s : State) : (complete e s).draws = (e s).draws := by simp only [complete]
@[simp] theorem complete_host (e : State → State) (s : State) : (complete e s).host = (e s).host := by simp only [complete]
@[simp] theorem complete_reads (e : State → State) (s : State) : (complete e s).reads = (e s).reads := by simp only [complete]
@[simp] theorem complete_failure (e : State → State) (s : State) : (complete e s).failure = (e s).failure := by simp only [complete]
@[simp] theorem complete_callMark (e : State → State) (s : State) : (complete e s).callMark = (e s).callMark := by simp only [complete]
@[simp] theorem complete_result (e : State → State) (s : State) : (complete e s).result = (e s).result := by simp only [complete]

/-! subkeyEffect -/

@[simp] theorem subkeyEffect_ieDone (c : Cfg) (r : RoundIdx) (s : State) : (subkeyEffect c r s).ieDone = s.ieDone := by simp only [subkeyEffect]
@[simp] theorem subkeyEffect_ieErr (c : Cfg) (r : RoundIdx) (s : State) : (subkeyEffect c r s).ieErr = s.ieErr := by simp only [subkeyEffect]
@[simp] theorem subkeyEffect_phase (c : Cfg) (r : RoundIdx) (s : State) : (subkeyEffect c r s).phase = s.phase := by simp only [subkeyEffect]
@[simp] theorem subkeyEffect_done (c : Cfg) (r : RoundIdx) (s : State) : (subkeyEffect c r s).done = s.done := by simp only [subkeyEffect]
@[simp] theorem subkeyEffect_ovf (c : Cfg) (r : RoundIdx) (s : State) : (subkeyEffect c r s).ovf = s.ovf := by simp only [subkeyEffect]
@[simp] theorem subkeyEffect_err (c : Cfg) (r : RoundIdx) (s : State) : (subkeyEffect c r s).err = s.err := by simp only [subkeyEffect]
@[simp] theorem subkeyEffect_keyMask (c : Cfg) (r : RoundIdx) (s : State) : (subkeyEffect c r s).keyMask = s.keyMask := by simp only [subkeyEffect]
@[simp] theorem subkeyEffect_dataMask (c : Cfg) (r : RoundIdx) (s : State) : (subkeyEffect c r s).dataMask = s.dataMask := by simp only [subkeyEffect]
@[simp] theorem subkeyEffect_key (c : Cfg) (r : RoundIdx) (s : State) : (subkeyEffect c r s).key = s.key := by simp only [subkeyEffect]
@[simp] theorem subkeyEffect_data (c : Cfg) (r : RoundIdx) (s : State) : (subkeyEffect c r s).data = s.data := by simp only [subkeyEffect]
@[simp] theorem subkeyEffect_skhi (c : Cfg) (r : RoundIdx) (s : State) : (subkeyEffect c r s).skhi = skhiOf r (subkeyOf c s.key r) := by simp only [subkeyEffect]
@[simp] theorem subkeyEffect_sklo (c : Cfg) (r : RoundIdx) (s : State) : (subkeyEffect c r s).sklo = skloOf (subkeyOf c s.key r) := by simp only [subkeyEffect]
@[simp] theorem subkeyEffect_rst (c : Cfg) (r : RoundIdx) (s : State) : (subkeyEffect c r s).rst = s.rst := by simp only [subkeyEffect]
@[simp] theorem subkeyEffect_lat (c : Cfg) (r : RoundIdx) (s : State) : (subkeyEffect c r s).lat = s.lat := by simp only [subkeyEffect]
@[simp] theorem subkeyEffect_draws (c : Cfg) (r : RoundIdx) (s : State) : (subkeyEffect c r s).draws = s.draws := by simp only [subkeyEffect]
@[simp] theorem subkeyEffect_host (c : Cfg) (r : RoundIdx) (s : State) : (subkeyEffect c r s).host = s.host := by simp only [subkeyEffect]
@[simp] theorem subkeyEffect_reads (c : Cfg) (r : RoundIdx) (s : State) : (subkeyEffect c r s).reads = s.reads := by simp only [subkeyEffect]
@[simp] theorem subkeyEffect_failure (c : Cfg) (r : RoundIdx) (s : State) : (subkeyEffect c r s).failure = s.failure := by simp only [subkeyEffect]
@[simp] theorem subkeyEffect_callMark (c : Cfg) (r : RoundIdx) (s : State) : (subkeyEffect c r s).callMark = s.callMark := by simp only [subkeyEffect]
@[simp] theorem subkeyEffect_result (c : Cfg) (r : RoundIdx) (s : State) : (subkeyEffect c r s).result = s.result := by simp only [subkeyEffect]

/-! lanefEffect -/

@[simp] theorem lanefEffect_ieDone (c : Cfg) (fn : LaneFn) (k : LaneIdx) (r : RoundIdx) (s : State) : (lanefEffect c fn k r s).ieDone = s.ieDone := by simp only [lanefEffect]
@[simp] theorem lanefEffect_ieErr (c : Cfg) (fn : LaneFn) (k : LaneIdx) (r : RoundIdx) (s : State) : (lanefEffect c fn k r s).ieErr = s.ieErr := by simp only [lanefEffect]
@[simp] theorem lanefEffect_phase (c : Cfg) (fn : LaneFn) (k : LaneIdx) (r : RoundIdx) (s : State) : (lanefEffect c fn k r s).phase = s.phase := by simp only [lanefEffect]
@[simp] theorem lanefEffect_done (c : Cfg) (fn : LaneFn) (k : LaneIdx) (r : RoundIdx) (s : State) : (lanefEffect c fn k r s).done = s.done := by simp only [lanefEffect]
@[simp] theorem lanefEffect_ovf (c : Cfg) (fn : LaneFn) (k : LaneIdx) (r : RoundIdx) (s : State) : (lanefEffect c fn k r s).ovf = s.ovf := by simp only [lanefEffect]
@[simp] theorem lanefEffect_err (c : Cfg) (fn : LaneFn) (k : LaneIdx) (r : RoundIdx) (s : State) : (lanefEffect c fn k r s).err = s.err := by simp only [lanefEffect]
@[simp] theorem lanefEffect_keyMask (c : Cfg) (fn : LaneFn) (k : LaneIdx) (r : RoundIdx) (s : State) : (lanefEffect c fn k r s).keyMask = s.keyMask := by simp only [lanefEffect]
@[simp] theorem lanefEffect_dataMask (c : Cfg) (fn : LaneFn) (k : LaneIdx) (r : RoundIdx) (s : State) : (lanefEffect c fn k r s).dataMask = s.dataMask := by simp only [lanefEffect]
@[simp] theorem lanefEffect_key (c : Cfg) (fn : LaneFn) (k : LaneIdx) (r : RoundIdx) (s : State) : (lanefEffect c fn k r s).key = s.key := by simp only [lanefEffect]
@[simp] theorem lanefEffect_data (c : Cfg) (fn : LaneFn) (k : LaneIdx) (r : RoundIdx) (s : State) : (lanefEffect c fn k r s).data = setLane s.data k (fwd c fn (laneOf s.data k) (subkeyOf c s.key r)) := by simp only [lanefEffect]
@[simp] theorem lanefEffect_skhi (c : Cfg) (fn : LaneFn) (k : LaneIdx) (r : RoundIdx) (s : State) : (lanefEffect c fn k r s).skhi = s.skhi := by simp only [lanefEffect]
@[simp] theorem lanefEffect_sklo (c : Cfg) (fn : LaneFn) (k : LaneIdx) (r : RoundIdx) (s : State) : (lanefEffect c fn k r s).sklo = s.sklo := by simp only [lanefEffect]
@[simp] theorem lanefEffect_rst (c : Cfg) (fn : LaneFn) (k : LaneIdx) (r : RoundIdx) (s : State) : (lanefEffect c fn k r s).rst = s.rst := by simp only [lanefEffect]
@[simp] theorem lanefEffect_lat (c : Cfg) (fn : LaneFn) (k : LaneIdx) (r : RoundIdx) (s : State) : (lanefEffect c fn k r s).lat = s.lat := by simp only [lanefEffect]
@[simp] theorem lanefEffect_draws (c : Cfg) (fn : LaneFn) (k : LaneIdx) (r : RoundIdx) (s : State) : (lanefEffect c fn k r s).draws = s.draws := by simp only [lanefEffect]
@[simp] theorem lanefEffect_host (c : Cfg) (fn : LaneFn) (k : LaneIdx) (r : RoundIdx) (s : State) : (lanefEffect c fn k r s).host = s.host := by simp only [lanefEffect]
@[simp] theorem lanefEffect_reads (c : Cfg) (fn : LaneFn) (k : LaneIdx) (r : RoundIdx) (s : State) : (lanefEffect c fn k r s).reads = s.reads := by simp only [lanefEffect]
@[simp] theorem lanefEffect_failure (c : Cfg) (fn : LaneFn) (k : LaneIdx) (r : RoundIdx) (s : State) : (lanefEffect c fn k r s).failure = s.failure := by simp only [lanefEffect]
@[simp] theorem lanefEffect_callMark (c : Cfg) (fn : LaneFn) (k : LaneIdx) (r : RoundIdx) (s : State) : (lanefEffect c fn k r s).callMark = s.callMark := by simp only [lanefEffect]
@[simp] theorem lanefEffect_result (c : Cfg) (fn : LaneFn) (k : LaneIdx) (r : RoundIdx) (s : State) : (lanefEffect c fn k r s).result = s.result := by simp only [lanefEffect]

/-! lanefiEffect -/

@[simp] theorem lanefiEffect_ieDone (c : Cfg) (fn : LaneFn) (k : LaneIdx) (r : RoundIdx) (s : State) : (lanefiEffect c fn k r s).ieDone = s.ieDone := by simp only [lanefiEffect]
@[simp] theorem lanefiEffect_ieErr (c : Cfg) (fn : LaneFn) (k : LaneIdx) (r : RoundIdx) (s : State) : (lanefiEffect c fn k r s).ieErr = s.ieErr := by simp only [lanefiEffect]
@[simp] theorem lanefiEffect_phase (c : Cfg) (fn : LaneFn) (k : LaneIdx) (r : RoundIdx) (s : State) : (lanefiEffect c fn k r s).phase = s.phase := by simp only [lanefiEffect]
@[simp] theorem lanefiEffect_done (c : Cfg) (fn : LaneFn) (k : LaneIdx) (r : RoundIdx) (s : State) : (lanefiEffect c fn k r s).done = s.done := by simp only [lanefiEffect]
@[simp] theorem lanefiEffect_ovf (c : Cfg) (fn : LaneFn) (k : LaneIdx) (r : RoundIdx) (s : State) : (lanefiEffect c fn k r s).ovf = s.ovf := by simp only [lanefiEffect]
@[simp] theorem lanefiEffect_err (c : Cfg) (fn : LaneFn) (k : LaneIdx) (r : RoundIdx) (s : State) : (lanefiEffect c fn k r s).err = s.err := by simp only [lanefiEffect]
@[simp] theorem lanefiEffect_keyMask (c : Cfg) (fn : LaneFn) (k : LaneIdx) (r : RoundIdx) (s : State) : (lanefiEffect c fn k r s).keyMask = s.keyMask := by simp only [lanefiEffect]
@[simp] theorem lanefiEffect_dataMask (c : Cfg) (fn : LaneFn) (k : LaneIdx) (r : RoundIdx) (s : State) : (lanefiEffect c fn k r s).dataMask = s.dataMask := by simp only [lanefiEffect]
@[simp] theorem lanefiEffect_key (c : Cfg) (fn : LaneFn) (k : LaneIdx) (r : RoundIdx) (s : State) : (lanefiEffect c fn k r s).key = s.key := by simp only [lanefiEffect]
@[simp] theorem lanefiEffect_data (c : Cfg) (fn : LaneFn) (k : LaneIdx) (r : RoundIdx) (s : State) : (lanefiEffect c fn k r s).data = setLane s.data k (invf c fn (laneOf s.data k) (subkeyOf c s.key r)) := by simp only [lanefiEffect]
@[simp] theorem lanefiEffect_skhi (c : Cfg) (fn : LaneFn) (k : LaneIdx) (r : RoundIdx) (s : State) : (lanefiEffect c fn k r s).skhi = s.skhi := by simp only [lanefiEffect]
@[simp] theorem lanefiEffect_sklo (c : Cfg) (fn : LaneFn) (k : LaneIdx) (r : RoundIdx) (s : State) : (lanefiEffect c fn k r s).sklo = s.sklo := by simp only [lanefiEffect]
@[simp] theorem lanefiEffect_rst (c : Cfg) (fn : LaneFn) (k : LaneIdx) (r : RoundIdx) (s : State) : (lanefiEffect c fn k r s).rst = s.rst := by simp only [lanefiEffect]
@[simp] theorem lanefiEffect_lat (c : Cfg) (fn : LaneFn) (k : LaneIdx) (r : RoundIdx) (s : State) : (lanefiEffect c fn k r s).lat = s.lat := by simp only [lanefiEffect]
@[simp] theorem lanefiEffect_draws (c : Cfg) (fn : LaneFn) (k : LaneIdx) (r : RoundIdx) (s : State) : (lanefiEffect c fn k r s).draws = s.draws := by simp only [lanefiEffect]
@[simp] theorem lanefiEffect_host (c : Cfg) (fn : LaneFn) (k : LaneIdx) (r : RoundIdx) (s : State) : (lanefiEffect c fn k r s).host = s.host := by simp only [lanefiEffect]
@[simp] theorem lanefiEffect_reads (c : Cfg) (fn : LaneFn) (k : LaneIdx) (r : RoundIdx) (s : State) : (lanefiEffect c fn k r s).reads = s.reads := by simp only [lanefiEffect]
@[simp] theorem lanefiEffect_failure (c : Cfg) (fn : LaneFn) (k : LaneIdx) (r : RoundIdx) (s : State) : (lanefiEffect c fn k r s).failure = s.failure := by simp only [lanefiEffect]
@[simp] theorem lanefiEffect_callMark (c : Cfg) (fn : LaneFn) (k : LaneIdx) (r : RoundIdx) (s : State) : (lanefiEffect c fn k r s).callMark = s.callMark := by simp only [lanefiEffect]
@[simp] theorem lanefiEffect_result (c : Cfg) (fn : LaneFn) (k : LaneIdx) (r : RoundIdx) (s : State) : (lanefiEffect c fn k r s).result = s.result := by simp only [lanefiEffect]

/-! encEffect -/

@[simp] theorem encEffect_ieDone (c : Cfg) (s : State) : (encEffect c s).ieDone = s.ieDone := by simp only [encEffect]
@[simp] theorem encEffect_ieErr (c : Cfg) (s : State) : (encEffect c s).ieErr = s.ieErr := by simp only [encEffect]
@[simp] theorem encEffect_phase (c : Cfg) (s : State) : (encEffect c s).phase = s.phase := by simp only [encEffect]
@[simp] theorem encEffect_done (c : Cfg) (s : State) : (encEffect c s).done = s.done := by simp only [encEffect]
@[simp] theorem encEffect_ovf (c : Cfg) (s : State) : (encEffect c s).ovf = s.ovf := by simp only [encEffect]
@[simp] theorem encEffect_err (c : Cfg) (s : State) : (encEffect c s).err = s.err := by simp only [encEffect]
@[simp] theorem encEffect_keyMask (c : Cfg) (s : State) : (encEffect c s).keyMask = s.keyMask := by simp only [encEffect]
@[simp] theorem encEffect_dataMask (c : Cfg) (s : State) : (encEffect c s).dataMask = 0#4 := by simp only [encEffect]
@[simp] theorem encEffect_key (c : Cfg) (s : State) : (encEffect c s).key = s.key := by simp only [encEffect]
@[simp] theorem encEffect_data (c : Cfg) (s : State) : (encEffect c s).data = encrypt c s.data s.key := by simp only [encEffect]
@[simp] theorem encEffect_skhi (c : Cfg) (s : State) : (encEffect c s).skhi = s.skhi := by simp only [encEffect]
@[simp] theorem encEffect_sklo (c : Cfg) (s : State) : (encEffect c s).sklo = s.sklo := by simp only [encEffect]
@[simp] theorem encEffect_rst (c : Cfg) (s : State) : (encEffect c s).rst = s.rst := by simp only [encEffect]
@[simp] theorem encEffect_lat (c : Cfg) (s : State) : (encEffect c s).lat = s.lat := by simp only [encEffect]
@[simp] theorem encEffect_draws (c : Cfg) (s : State) : (encEffect c s).draws = s.draws := by simp only [encEffect]
@[simp] theorem encEffect_host (c : Cfg) (s : State) : (encEffect c s).host = s.host := by simp only [encEffect]
@[simp] theorem encEffect_reads (c : Cfg) (s : State) : (encEffect c s).reads = s.reads := by simp only [encEffect]
@[simp] theorem encEffect_failure (c : Cfg) (s : State) : (encEffect c s).failure = s.failure := by simp only [encEffect]
@[simp] theorem encEffect_callMark (c : Cfg) (s : State) : (encEffect c s).callMark = s.callMark := by simp only [encEffect]
@[simp] theorem encEffect_result (c : Cfg) (s : State) : (encEffect c s).result = s.result := by simp only [encEffect]

/-! decEffect -/

@[simp] theorem decEffect_ieDone (c : Cfg) (s : State) : (decEffect c s).ieDone = s.ieDone := by simp only [decEffect]
@[simp] theorem decEffect_ieErr (c : Cfg) (s : State) : (decEffect c s).ieErr = s.ieErr := by simp only [decEffect]
@[simp] theorem decEffect_phase (c : Cfg) (s : State) : (decEffect c s).phase = s.phase := by simp only [decEffect]
@[simp] theorem decEffect_done (c : Cfg) (s : State) : (decEffect c s).done = s.done := by simp only [decEffect]
@[simp] theorem decEffect_ovf (c : Cfg) (s : State) : (decEffect c s).ovf = s.ovf := by simp only [decEffect]
@[simp] theorem decEffect_err (c : Cfg) (s : State) : (decEffect c s).err = s.err := by simp only [decEffect]
@[simp] theorem decEffect_keyMask (c : Cfg) (s : State) : (decEffect c s).keyMask = s.keyMask := by simp only [decEffect]
@[simp] theorem decEffect_dataMask (c : Cfg) (s : State) : (decEffect c s).dataMask = 0#4 := by simp only [decEffect]
@[simp] theorem decEffect_key (c : Cfg) (s : State) : (decEffect c s).key = s.key := by simp only [decEffect]
@[simp] theorem decEffect_data (c : Cfg) (s : State) : (decEffect c s).data = decrypt c s.data s.key := by simp only [decEffect]
@[simp] theorem decEffect_skhi (c : Cfg) (s : State) : (decEffect c s).skhi = s.skhi := by simp only [decEffect]
@[simp] theorem decEffect_sklo (c : Cfg) (s : State) : (decEffect c s).sklo = s.sklo := by simp only [decEffect]
@[simp] theorem decEffect_rst (c : Cfg) (s : State) : (decEffect c s).rst = s.rst := by simp only [decEffect]
@[simp] theorem decEffect_lat (c : Cfg) (s : State) : (decEffect c s).lat = s.lat := by simp only [decEffect]
@[simp] theorem decEffect_draws (c : Cfg) (s : State) : (decEffect c s).draws = s.draws := by simp only [decEffect]
@[simp] theorem decEffect_host (c : Cfg) (s : State) : (decEffect c s).host = s.host := by simp only [decEffect]
@[simp] theorem decEffect_reads (c : Cfg) (s : State) : (decEffect c s).reads = s.reads := by simp only [decEffect]
@[simp] theorem decEffect_failure (c : Cfg) (s : State) : (decEffect c s).failure = s.failure := by simp only [decEffect]
@[simp] theorem decEffect_callMark (c : Cfg) (s : State) : (decEffect c s).callMark = s.callMark := by simp only [decEffect]
@[simp] theorem decEffect_result (c : Cfg) (s : State) : (decEffect c s).result = s.result := by simp only [decEffect]

/-! encrEffect -/

@[simp] theorem encrEffect_ieDone (c : Cfg) (r : RoundIdx) (s : State) : (encrEffect c r s).ieDone = s.ieDone := by simp only [encrEffect]
@[simp] theorem encrEffect_ieErr (c : Cfg) (r : RoundIdx) (s : State) : (encrEffect c r s).ieErr = s.ieErr := by simp only [encrEffect]
@[simp] theorem encrEffect_phase (c : Cfg) (r : RoundIdx) (s : State) : (encrEffect c r s).phase = s.phase := by simp only [encrEffect]
@[simp] theorem encrEffect_done (c : Cfg) (r : RoundIdx) (s : State) : (encrEffect c r s).done = s.done := by simp only [encrEffect]
@[simp] theorem encrEffect_ovf (c : Cfg) (r : RoundIdx) (s : State) : (encrEffect c r s).ovf = s.ovf := by simp only [encrEffect]
@[simp] theorem encrEffect_err (c : Cfg) (r : RoundIdx) (s : State) : (encrEffect c r s).err = s.err := by simp only [encrEffect]
@[simp] theorem encrEffect_keyMask (c : Cfg) (r : RoundIdx) (s : State) : (encrEffect c r s).keyMask = s.keyMask := by simp only [encrEffect]
@[simp] theorem encrEffect_dataMask (c : Cfg) (r : RoundIdx) (s : State) : (encrEffect c r s).dataMask = s.dataMask := by simp only [encrEffect]
@[simp] theorem encrEffect_key (c : Cfg) (r : RoundIdx) (s : State) : (encrEffect c r s).key = s.key := by simp only [encrEffect]
@[simp] theorem encrEffect_data (c : Cfg) (r : RoundIdx) (s : State) : (encrEffect c r s).data = Sys2Proof.Machine.round c s.data s.key r := by simp only [encrEffect]
@[simp] theorem encrEffect_skhi (c : Cfg) (r : RoundIdx) (s : State) : (encrEffect c r s).skhi = s.skhi := by simp only [encrEffect]
@[simp] theorem encrEffect_sklo (c : Cfg) (r : RoundIdx) (s : State) : (encrEffect c r s).sklo = s.sklo := by simp only [encrEffect]
@[simp] theorem encrEffect_rst (c : Cfg) (r : RoundIdx) (s : State) : (encrEffect c r s).rst = s.rst := by simp only [encrEffect]
@[simp] theorem encrEffect_lat (c : Cfg) (r : RoundIdx) (s : State) : (encrEffect c r s).lat = s.lat := by simp only [encrEffect]
@[simp] theorem encrEffect_draws (c : Cfg) (r : RoundIdx) (s : State) : (encrEffect c r s).draws = s.draws := by simp only [encrEffect]
@[simp] theorem encrEffect_host (c : Cfg) (r : RoundIdx) (s : State) : (encrEffect c r s).host = s.host := by simp only [encrEffect]
@[simp] theorem encrEffect_reads (c : Cfg) (r : RoundIdx) (s : State) : (encrEffect c r s).reads = s.reads := by simp only [encrEffect]
@[simp] theorem encrEffect_failure (c : Cfg) (r : RoundIdx) (s : State) : (encrEffect c r s).failure = s.failure := by simp only [encrEffect]
@[simp] theorem encrEffect_callMark (c : Cfg) (r : RoundIdx) (s : State) : (encrEffect c r s).callMark = s.callMark := by simp only [encrEffect]
@[simp] theorem encrEffect_result (c : Cfg) (r : RoundIdx) (s : State) : (encrEffect c r s).result = s.result := by simp only [encrEffect]

/-! decrEffect -/

@[simp] theorem decrEffect_ieDone (c : Cfg) (r : RoundIdx) (s : State) : (decrEffect c r s).ieDone = s.ieDone := by simp only [decrEffect]
@[simp] theorem decrEffect_ieErr (c : Cfg) (r : RoundIdx) (s : State) : (decrEffect c r s).ieErr = s.ieErr := by simp only [decrEffect]
@[simp] theorem decrEffect_phase (c : Cfg) (r : RoundIdx) (s : State) : (decrEffect c r s).phase = s.phase := by simp only [decrEffect]
@[simp] theorem decrEffect_done (c : Cfg) (r : RoundIdx) (s : State) : (decrEffect c r s).done = s.done := by simp only [decrEffect]
@[simp] theorem decrEffect_ovf (c : Cfg) (r : RoundIdx) (s : State) : (decrEffect c r s).ovf = s.ovf := by simp only [decrEffect]
@[simp] theorem decrEffect_err (c : Cfg) (r : RoundIdx) (s : State) : (decrEffect c r s).err = s.err := by simp only [decrEffect]
@[simp] theorem decrEffect_keyMask (c : Cfg) (r : RoundIdx) (s : State) : (decrEffect c r s).keyMask = s.keyMask := by simp only [decrEffect]
@[simp] theorem decrEffect_dataMask (c : Cfg) (r : RoundIdx) (s : State) : (decrEffect c r s).dataMask = s.dataMask := by simp only [decrEffect]
@[simp] theorem decrEffect_key (c : Cfg) (r : RoundIdx) (s : State) : (decrEffect c r s).key = s.key := by simp only [decrEffect]
@[simp] theorem decrEffect_data (c : Cfg) (r : RoundIdx) (s : State) : (decrEffect c r s).data = roundInv c s.data s.key r := by simp only [decrEffect]
@[simp] theorem decrEffect_skhi (c : Cfg) (r : RoundIdx) (s : State) : (decrEffect c r s).skhi = s.skhi := by simp only [decrEffect]
@[simp] theorem decrEffect_sklo (c : Cfg) (r : RoundIdx) (s : State) : (decrEffect c r s).sklo = s.sklo := by simp only [decrEffect]
@[simp] theorem decrEffect_rst (c : Cfg) (r : RoundIdx) (s : State) : (decrEffect c r s).rst = s.rst := by simp only [decrEffect]
@[simp] theorem decrEffect_lat (c : Cfg) (r : RoundIdx) (s : State) : (decrEffect c r s).lat = s.lat := by simp only [decrEffect]
@[simp] theorem decrEffect_draws (c : Cfg) (r : RoundIdx) (s : State) : (decrEffect c r s).draws = s.draws := by simp only [decrEffect]
@[simp] theorem decrEffect_host (c : Cfg) (r : RoundIdx) (s : State) : (decrEffect c r s).host = s.host := by simp only [decrEffect]
@[simp] theorem decrEffect_reads (c : Cfg) (r : RoundIdx) (s : State) : (decrEffect c r s).reads = s.reads := by simp only [decrEffect]
@[simp] theorem decrEffect_failure (c : Cfg) (r : RoundIdx) (s : State) : (decrEffect c r s).failure = s.failure := by simp only [decrEffect]
@[simp] theorem decrEffect_callMark (c : Cfg) (r : RoundIdx) (s : State) : (decrEffect c r s).callMark = s.callMark := by simp only [decrEffect]
@[simp] theorem decrEffect_result (c : Cfg) (r : RoundIdx) (s : State) : (decrEffect c r s).result = s.result := by simp only [decrEffect]

/-! clearEffect -/

@[simp] theorem clearEffect_ieDone (s : State) : (clearEffect s).ieDone = s.ieDone := by simp only [clearEffect]
@[simp] theorem clearEffect_ieErr (s : State) : (clearEffect s).ieErr = s.ieErr := by simp only [clearEffect]
@[simp] theorem clearEffect_phase (s : State) : (clearEffect s).phase = s.phase := by simp only [clearEffect]
@[simp] theorem clearEffect_done (s : State) : (clearEffect s).done = s.done := by simp only [clearEffect]
@[simp] theorem clearEffect_ovf (s : State) : (clearEffect s).ovf = s.ovf := by simp only [clearEffect]
@[simp] theorem clearEffect_err (s : State) : (clearEffect s).err = s.err := by simp only [clearEffect]
@[simp] theorem clearEffect_keyMask (s : State) : (clearEffect s).keyMask = 0#4 := by simp only [clearEffect]
@[simp] theorem clearEffect_dataMask (s : State) : (clearEffect s).dataMask = 0#4 := by simp only [clearEffect]
@[simp] theorem clearEffect_key (s : State) : (clearEffect s).key = zeroBlock := by simp only [clearEffect]
@[simp] theorem clearEffect_data (s : State) : (clearEffect s).data = zeroBlock := by simp only [clearEffect]
@[simp] theorem clearEffect_skhi (s : State) : (clearEffect s).skhi = 0#32 := by simp only [clearEffect]
@[simp] theorem clearEffect_sklo (s : State) : (clearEffect s).sklo = 0#32 := by simp only [clearEffect]
@[simp] theorem clearEffect_rst (s : State) : (clearEffect s).rst = s.rst := by simp only [clearEffect]
@[simp] theorem clearEffect_lat (s : State) : (clearEffect s).lat = s.lat := by simp only [clearEffect]
@[simp] theorem clearEffect_draws (s : State) : (clearEffect s).draws = s.draws := by simp only [clearEffect]
@[simp] theorem clearEffect_host (s : State) : (clearEffect s).host = s.host := by simp only [clearEffect]
@[simp] theorem clearEffect_reads (s : State) : (clearEffect s).reads = s.reads := by simp only [clearEffect]
@[simp] theorem clearEffect_failure (s : State) : (clearEffect s).failure = s.failure := by simp only [clearEffect]
@[simp] theorem clearEffect_callMark (s : State) : (clearEffect s).callMark = s.callMark := by simp only [clearEffect]
@[simp] theorem clearEffect_result (s : State) : (clearEffect s).result = s.result := by simp only [clearEffect]

/-! loadPend -/

@[simp] theorem loadPend_ieDone (w : Word) (s : State) : (loadPend w s).ieDone = s.ieDone := by simp only [loadPend]
@[simp] theorem loadPend_ieErr (w : Word) (s : State) : (loadPend w s).ieErr = s.ieErr := by simp only [loadPend]
@[simp] theorem loadPend_phase (w : Word) (s : State) : (loadPend w s).phase = .busy w := by simp only [loadPend]
@[simp] theorem loadPend_done (w : Word) (s : State) : (loadPend w s).done = s.done := by simp only [loadPend]
@[simp] theorem loadPend_ovf (w : Word) (s : State) : (loadPend w s).ovf = s.ovf := by simp only [loadPend]
@[simp] theorem loadPend_err (w : Word) (s : State) : (loadPend w s).err = s.err := by simp only [loadPend]
@[simp] theorem loadPend_keyMask (w : Word) (s : State) : (loadPend w s).keyMask = s.keyMask := by simp only [loadPend]
@[simp] theorem loadPend_dataMask (w : Word) (s : State) : (loadPend w s).dataMask = s.dataMask := by simp only [loadPend]
@[simp] theorem loadPend_key (w : Word) (s : State) : (loadPend w s).key = s.key := by simp only [loadPend]
@[simp] theorem loadPend_data (w : Word) (s : State) : (loadPend w s).data = s.data := by simp only [loadPend]
@[simp] theorem loadPend_skhi (w : Word) (s : State) : (loadPend w s).skhi = s.skhi := by simp only [loadPend]
@[simp] theorem loadPend_sklo (w : Word) (s : State) : (loadPend w s).sklo = s.sklo := by simp only [loadPend]
@[simp] theorem loadPend_rst (w : Word) (s : State) : (loadPend w s).rst = false := by simp only [loadPend]
@[simp] theorem loadPend_lat (w : Word) (s : State) : (loadPend w s).lat = 0 := by simp only [loadPend]
@[simp] theorem loadPend_draws (w : Word) (s : State) : (loadPend w s).draws = s.draws := by simp only [loadPend]
@[simp] theorem loadPend_host (w : Word) (s : State) : (loadPend w s).host = s.host := by simp only [loadPend]
@[simp] theorem loadPend_reads (w : Word) (s : State) : (loadPend w s).reads = s.reads := by simp only [loadPend]
@[simp] theorem loadPend_failure (w : Word) (s : State) : (loadPend w s).failure = s.failure := by simp only [loadPend]
@[simp] theorem loadPend_callMark (w : Word) (s : State) : (loadPend w s).callMark = s.callMark := by simp only [loadPend]
@[simp] theorem loadPend_result (w : Word) (s : State) : (loadPend w s).result = s.result := by simp only [loadPend]

/-! raiseError: only ERR and OVF can change. -/

@[simp] theorem raiseError_ieDone (code : ErrorCode) (s : State) : (raiseError code s).ieDone = s.ieDone := by
  unfold raiseError; split <;> rfl
@[simp] theorem raiseError_ieErr (code : ErrorCode) (s : State) : (raiseError code s).ieErr = s.ieErr := by
  unfold raiseError; split <;> rfl
@[simp] theorem raiseError_phase (code : ErrorCode) (s : State) : (raiseError code s).phase = s.phase := by
  unfold raiseError; split <;> rfl
@[simp] theorem raiseError_done (code : ErrorCode) (s : State) : (raiseError code s).done = s.done := by
  unfold raiseError; split <;> rfl
@[simp] theorem raiseError_keyMask (code : ErrorCode) (s : State) : (raiseError code s).keyMask = s.keyMask := by
  unfold raiseError; split <;> rfl
@[simp] theorem raiseError_dataMask (code : ErrorCode) (s : State) : (raiseError code s).dataMask = s.dataMask := by
  unfold raiseError; split <;> rfl
@[simp] theorem raiseError_key (code : ErrorCode) (s : State) : (raiseError code s).key = s.key := by
  unfold raiseError; split <;> rfl
@[simp] theorem raiseError_data (code : ErrorCode) (s : State) : (raiseError code s).data = s.data := by
  unfold raiseError; split <;> rfl
@[simp] theorem raiseError_skhi (code : ErrorCode) (s : State) : (raiseError code s).skhi = s.skhi := by
  unfold raiseError; split <;> rfl
@[simp] theorem raiseError_sklo (code : ErrorCode) (s : State) : (raiseError code s).sklo = s.sklo := by
  unfold raiseError; split <;> rfl
@[simp] theorem raiseError_rst (code : ErrorCode) (s : State) : (raiseError code s).rst = s.rst := by
  unfold raiseError; split <;> rfl
@[simp] theorem raiseError_lat (code : ErrorCode) (s : State) : (raiseError code s).lat = s.lat := by
  unfold raiseError; split <;> rfl
@[simp] theorem raiseError_draws (code : ErrorCode) (s : State) : (raiseError code s).draws = s.draws := by
  unfold raiseError; split <;> rfl
@[simp] theorem raiseError_host (code : ErrorCode) (s : State) : (raiseError code s).host = s.host := by
  unfold raiseError; split <;> rfl
@[simp] theorem raiseError_reads (code : ErrorCode) (s : State) : (raiseError code s).reads = s.reads := by
  unfold raiseError; split <;> rfl
@[simp] theorem raiseError_failure (code : ErrorCode) (s : State) : (raiseError code s).failure = s.failure := by
  unfold raiseError; split <;> rfl
@[simp] theorem raiseError_callMark (code : ErrorCode) (s : State) : (raiseError code s).callMark = s.callMark := by
  unfold raiseError; split <;> rfl
@[simp] theorem raiseError_result (code : ErrorCode) (s : State) : (raiseError code s).result = s.result := by
  unfold raiseError; split <;> rfl

/-! The driver's own steps: nothing of CORE changes. -/

@[simp] theorem hostCallEnter_ieDone (e : Option DriverFailure) (s : State) : (hostCallEnter e s).ieDone = s.ieDone := rfl
@[simp] theorem hostCallLeave_ieDone (d : Direction) (s : State) : (hostCallLeave d s).ieDone = s.ieDone := rfl
@[simp] theorem hostCallEnter_ieErr (e : Option DriverFailure) (s : State) : (hostCallEnter e s).ieErr = s.ieErr := rfl
@[simp] theorem hostCallLeave_ieErr (d : Direction) (s : State) : (hostCallLeave d s).ieErr = s.ieErr := rfl
@[simp] theorem hostCallEnter_phase (e : Option DriverFailure) (s : State) : (hostCallEnter e s).phase = s.phase := rfl
@[simp] theorem hostCallLeave_phase (d : Direction) (s : State) : (hostCallLeave d s).phase = s.phase := rfl
@[simp] theorem hostCallEnter_done (e : Option DriverFailure) (s : State) : (hostCallEnter e s).done = s.done := rfl
@[simp] theorem hostCallLeave_done (d : Direction) (s : State) : (hostCallLeave d s).done = s.done := rfl
@[simp] theorem hostCallEnter_ovf (e : Option DriverFailure) (s : State) : (hostCallEnter e s).ovf = s.ovf := rfl
@[simp] theorem hostCallLeave_ovf (d : Direction) (s : State) : (hostCallLeave d s).ovf = s.ovf := rfl
@[simp] theorem hostCallEnter_err (e : Option DriverFailure) (s : State) : (hostCallEnter e s).err = s.err := rfl
@[simp] theorem hostCallLeave_err (d : Direction) (s : State) : (hostCallLeave d s).err = s.err := rfl
@[simp] theorem hostCallEnter_keyMask (e : Option DriverFailure) (s : State) : (hostCallEnter e s).keyMask = s.keyMask := rfl
@[simp] theorem hostCallLeave_keyMask (d : Direction) (s : State) : (hostCallLeave d s).keyMask = s.keyMask := rfl
@[simp] theorem hostCallEnter_dataMask (e : Option DriverFailure) (s : State) : (hostCallEnter e s).dataMask = s.dataMask := rfl
@[simp] theorem hostCallLeave_dataMask (d : Direction) (s : State) : (hostCallLeave d s).dataMask = s.dataMask := rfl
@[simp] theorem hostCallEnter_key (e : Option DriverFailure) (s : State) : (hostCallEnter e s).key = s.key := rfl
@[simp] theorem hostCallLeave_key (d : Direction) (s : State) : (hostCallLeave d s).key = s.key := rfl
@[simp] theorem hostCallEnter_data (e : Option DriverFailure) (s : State) : (hostCallEnter e s).data = s.data := rfl
@[simp] theorem hostCallLeave_data (d : Direction) (s : State) : (hostCallLeave d s).data = s.data := rfl
@[simp] theorem hostCallEnter_skhi (e : Option DriverFailure) (s : State) : (hostCallEnter e s).skhi = s.skhi := rfl
@[simp] theorem hostCallLeave_skhi (d : Direction) (s : State) : (hostCallLeave d s).skhi = s.skhi := rfl
@[simp] theorem hostCallEnter_sklo (e : Option DriverFailure) (s : State) : (hostCallEnter e s).sklo = s.sklo := rfl
@[simp] theorem hostCallLeave_sklo (d : Direction) (s : State) : (hostCallLeave d s).sklo = s.sklo := rfl
@[simp] theorem hostCallEnter_rst (e : Option DriverFailure) (s : State) : (hostCallEnter e s).rst = s.rst := rfl
@[simp] theorem hostCallLeave_rst (d : Direction) (s : State) : (hostCallLeave d s).rst = s.rst := rfl
@[simp] theorem hostCallEnter_lat (e : Option DriverFailure) (s : State) : (hostCallEnter e s).lat = s.lat := rfl
@[simp] theorem hostCallLeave_lat (d : Direction) (s : State) : (hostCallLeave d s).lat = s.lat := rfl
@[simp] theorem hostCallEnter_draws (e : Option DriverFailure) (s : State) : (hostCallEnter e s).draws = s.draws := rfl
@[simp] theorem hostCallLeave_draws (d : Direction) (s : State) : (hostCallLeave d s).draws = s.draws := rfl
@[simp] theorem hostCallEnter_host (e : Option DriverFailure) (s : State) : (hostCallEnter e s).host = s.host := rfl
@[simp] theorem hostCallLeave_host (d : Direction) (s : State) : (hostCallLeave d s).host = s.host := rfl
@[simp] theorem hostCallEnter_reads (e : Option DriverFailure) (s : State) : (hostCallEnter e s).reads = s.reads := rfl
@[simp] theorem hostCallLeave_reads (d : Direction) (s : State) : (hostCallLeave d s).reads = s.reads := rfl
@[simp] theorem hostCallEnter_failure (e : Option DriverFailure) (s : State) : (hostCallEnter e s).failure = e := rfl
@[simp] theorem hostCallLeave_failure (d : Direction) (s : State) : (hostCallLeave d s).failure = s.failure := rfl
@[simp] theorem hostCallEnter_callMark (e : Option DriverFailure) (s : State) : (hostCallEnter e s).callMark = s.reads.length := rfl
@[simp] theorem hostCallLeave_callMark (d : Direction) (s : State) : (hostCallLeave d s).callMark = s.callMark := rfl
@[simp] theorem hostCallEnter_result (e : Option DriverFailure) (s : State) : (hostCallEnter e s).result = s.result := rfl
@[simp] theorem hostCallLeave_result (d : Direction) (s : State) : (hostCallLeave d s).result = some (driverResult d s) := rfl

@[simp] theorem nopEffect_eq (s : State) : nopEffect s = s := rfl

end Sys2Proof.Machine
end

