-- ==== Sys2Proof/Laws/Ops.lean ====
section
/-! SUPPORT. What each shared operation can do, said once, for proofs to cite instead of unfolding it. -/

namespace Sys2Proof.Machine

/-- raiseError sets ERR when it was 0, else OVF, and changes nothing else (60_exceptions.md R236). -/
theorem raiseError_cases (code : ErrorCode) (s : State) :
    (s.err = 0#4 ∧ raiseError code s = { s with err := errorValue code }) ∨
      (s.err ≠ 0#4 ∧ raiseError code s = { s with ovf := true }) := by
  unfold raiseError
  split
  · exact .inl ⟨‹_›, rfl⟩
  · exact .inr ⟨‹_›, rfl⟩

theorem errorValue_ne_zero (code : ErrorCode) : errorValue code ≠ 0#4 := by
  cases code <;> decide

/-- After an error is raised ERR is not 0. -/
theorem raiseError_err_ne_zero (code : ErrorCode) (s : State) : (raiseError code s).err ≠ 0#4 := by
  rcases raiseError_cases code s with ⟨_, h⟩ | ⟨h0, h⟩ <;> rw [h]
  · exact errorValue_ne_zero code
  · exact h0

/-- An issue raises one of the two incompleteness errors or accepts the word (43_control_commands.md R190). -/
theorem issue_cases (nk nd : Bool) (w : Word) (s : State) :
    (nk = true ∧ maskFull s.keyMask = false ∧ issue nk nd w s = raiseError .keyIncomplete s) ∨
      ((nk = true → maskFull s.keyMask = true) ∧ nd = true ∧ maskFull s.dataMask = false ∧
        issue nk nd w s = raiseError .dataIncomplete s) ∨
      ((nk = true → maskFull s.keyMask = true) ∧ (nd = true → maskFull s.dataMask = true) ∧
        issue nk nd w s = accept w s) := by
  unfold issue
  cases nk <;> cases nd <;> cases hk : maskFull s.keyMask <;> cases hd : maskFull s.dataMask <;> simp

/-- A command's meaning always goes on: with its issue when idle, with its completion when busy (43_control_commands.md
R190, R191). -/
theorem command_cases (nk nd : Bool) (i : Instr) (e : State → State) (s : State) :
    (s.phase = .idle ∧ command nk nd i e s = .next (issue nk nd (encode i) s)) ∨
      ((∃ w, s.phase = .busy w) ∧ command nk nd i e s = .next (complete e s)) := by
  unfold command
  cases h : s.phase with
  | idle => exact .inl ⟨rfl, rfl⟩
  | busy w => exact .inr ⟨⟨w, rfl⟩, rfl⟩

/-- The effect of an instruction at completion (43_control_commands.md R191's table). -/
def effectOf (c : Cfg) : Instr → State → State
  | .nop => nopEffect
  | .enc => encEffect c
  | .dec => decEffect c
  | .encr r => encrEffect c r
  | .decr r => decrEffect c r
  | .subkey r => subkeyEffect c r
  | .lanef fn k r => lanefEffect c fn k r
  | .lanefi fn k r => lanefiEffect c fn k r
  | .clear => clearEffect

/-- Every command is the shared life cycle around its own needs and effect. -/
theorem exec_eq_command (i : Instr) (s : State) :
    exec i s = command (needsKey i) (needsData i) i (effectOf Config.cfg i) s := by
  cases i <;> rfl

/-- No command stops the machine. -/
theorem exec_next (i : Instr) (s : State) : ∃ t, exec i s = .next t := by
  rw [exec_eq_command]
  rcases command_cases (needsKey i) (needsData i) i (effectOf Config.cfg i) s with ⟨_, h⟩ | ⟨_, h⟩ <;>
    exact ⟨_, h⟩

/-- What a completion's effect leaves as it was: everything but KEY, DATA, the masks, SKHI and SKLO. -/
theorem effectOf_frame (c : Cfg) (i : Instr) (s : State) :
    effectOf c i s = { s with
      key := (effectOf c i s).key
      data := (effectOf c i s).data
      keyMask := (effectOf c i s).keyMask
      dataMask := (effectOf c i s).dataMask
      skhi := (effectOf c i s).skhi
      sklo := (effectOf c i s).sklo } := by
  cases i <;> rfl

/-- A read moves nothing but the index of the free values (20_memory.md R64). -/
theorem regRead_cases (idx : RegIndex) (s : State) :
    (regRead idx s).2 = s ∨ (regRead idx s).2 = { s with draws := s.draws + 1 } := by
  unfold regRead readIdle drawWord
  repeat' split
  all_goals first | exact .inl rfl | exact .inr rfl

/-- A CMD write raises an error or issues the word's instruction (43_control_commands.md R190). -/
theorem issueWord_cases (w : Word) (s : State) :
    (busyBit s = true ∧ issueWord w s = .next (raiseError .busy s)) ∨
      (busyBit s = false ∧ (∃ e, decode w = .error e) ∧ issueWord w s = .next (raiseError .illegalCmd s)) ∨
      (busyBit s = false ∧ ∃ i, decode w = .ok i ∧ issueWord w s = exec i s) := by
  unfold issueWord
  cases hb : busyBit s with
  | true => simp
  | false => cases hd : decode w with
    | error e => simp
    | ok i => simp

/-- The driver's check goes on, or ends its call with the device error of the last `s` (44_host_driver.md R207). -/
theorem hostCheck_cases (s : State) :
    hostCheck s = s ∨ ∃ w, readingOf "s" s.reads = some w ∧ w.extractLsb' 4 4 ≠ 0#4 ∧ hostCheck s = { s with
      host := s.host.dropWhile fun op => !isCallLeave op
      failure := some (.deviceError (w.extractLsb' 4 4)) } := by
  unfold hostCheck
  split
  · exact .inl rfl
  · split
    · exact .inl rfl
    · exact .inr ⟨_, ‹_›, ‹_›, rfl⟩

/-- A write always goes on. -/
theorem regWrite_next (idx : RegIndex) (w : Word) (s : State) : ∃ t, regWrite idx w s = .next t := by
  unfold regWrite
  split
  · exact ⟨_, rfl⟩
  · split <;> try exact ⟨_, rfl⟩
    rcases issueWord_cases w s with ⟨_, h⟩ | ⟨_, _, h⟩ | ⟨_, i, _, h⟩
    · exact ⟨_, h⟩
    · exact ⟨_, h⟩
    · rw [h]
      exact exec_next i s

/-- An operation of the host always goes on. -/
theorem hostOp_next (op : HostOp) (s : State) : ∃ t, hostOp op s = .next t := by
  cases op with
  | wr idx w => exact regWrite_next idx w s
  | rd idx name => exact ⟨_, rfl⟩
  | wait => exact ⟨_, rfl⟩
  | waitIrq => exact ⟨_, rfl⟩
  | check => exact ⟨_, rfl⟩
  | callEnter refusal => exact ⟨_, rfl⟩
  | callLeave dir => exact ⟨_, rfl⟩
  | setRst level => exact ⟨_, rfl⟩

/-- The host's turn always goes on. -/
theorem hostStep_next (s : State) : ∃ t, hostStep s = .next t := by
  unfold hostStep
  split
  · exact ⟨_, rfl⟩
  · exact hostOp_next _ _

/-- One step is the host's turn in reset, the host's turn when idle, the host's turn of a running command with one
cycle less left, or the completion of PEND (20_memory.md R69). -/
theorem step_cases (s : State) :
    (s.rst = true ∧ step s = hostStep (resetCore s)) ∨
      (s.rst = false ∧ s.phase = .idle ∧ step s = hostStep s) ∨
      (s.rst = false ∧ (∃ w, s.phase = .busy w) ∧ s.lat ≠ 0 ∧ step s = hostStep { s with lat := s.lat - 1 }) ∨
      (s.rst = false ∧ s.lat = 0 ∧ ∃ w, s.phase = .busy w ∧ step s = completion w s) := by
  unfold step cycle
  cases hr : s.rst with
  | true => simp
  | false => cases hp : s.phase with
    | idle => simp
    | busy w =>
      by_cases hl : s.lat = 0
      · simp [hl]
      · simp [hl]

end Sys2Proof.Machine
end

