-- ==== Sys2Proof/Laws/Moves.lean ====
section
/-! SUPPORT. The inversion of a step: every way a host operation, and a step, can change the state, said once. Facts about
all steps follow by cases on `HostMove` and `StepMove`, with no unfolding of the machine. -/

namespace Sys2Proof.Machine

/-- The indices of the registers KEYk and DATAk (10_state.md R25). -/
def keyIndex (k : LaneIdx) : RegIndex := BitVec.ofNat 6 (4 + k.val)

def dataIndex (k : LaneIdx) : RegIndex := BitVec.ofNat 6 (8 + k.val)

theorem regOf_key (idx : RegIndex) (k : LaneIdx) (h : regOf idx = .key k) : idx = keyIndex k := by
  revert idx k; decide

theorem regOf_data (idx : RegIndex) (k : LaneIdx) (h : regOf idx = .data k) : idx = dataIndex k := by
  revert idx k; decide

theorem keyIndex_ne (k : LaneIdx) : keyIndex k ≠ 1#6 ∧ keyIndex k ≠ 2#6 := by revert k; decide

theorem dataIndex_ne (k : LaneIdx) : dataIndex k ≠ 1#6 ∧ dataIndex k ≠ 2#6 := by revert k; decide

theorem regOf_of_index (k : LaneIdx) : regOf (keyIndex k) = .key k ∧ regOf (dataIndex k) = .data k := by
  revert k; decide

/-- An index that is no KEY or DATA register. -/
theorem not_operand_index (idx : RegIndex) (hk : ∀ k, regOf idx ≠ .key k) (hd : ∀ k, regOf idx ≠ .data k)
    (k : LaneIdx) : ¬(idx = keyIndex k ∨ idx = dataIndex k) := by
  rintro (rfl | rfl)
  · exact hk k (regOf_of_index k).1
  · exact hd k (regOf_of_index k).2

theorem regOf_ctrl (idx : RegIndex) (h : regOf idx = .ctrl) : idx = 1#6 := by revert idx; decide

theorem regOf_status (idx : RegIndex) (h : regOf idx = .status) : idx = 2#6 := by revert idx; decide

theorem regOf_cmd (idx : RegIndex) (h : regOf idx = .cmd) : idx = 3#6 := by revert idx; decide

/-- Two states with the same record of CORE (10_state.md R45), RST and latency: they differ in the environment's
bookkeeping and the index of the free values at most. -/
structure SameCore (s t : State) : Prop where
  ieDone : t.ieDone = s.ieDone
  ieErr : t.ieErr = s.ieErr
  phase : t.phase = s.phase
  done : t.done = s.done
  ovf : t.ovf = s.ovf
  err : t.err = s.err
  keyMask : t.keyMask = s.keyMask
  dataMask : t.dataMask = s.dataMask
  key : t.key = s.key
  data : t.data = s.data
  skhi : t.skhi = s.skhi
  sklo : t.sklo = s.sklo
  rst : t.rst = s.rst
  lat : t.lat = s.lat

theorem SameCore.refl (s : State) : SameCore s s := by constructor <;> rfl

/-- What an operation of the host, taken from the list already, can do. -/
inductive HostMove (s : State) : HostOp → State → Prop
  /-- A read, a wait, a step of the driver's own code, or a write while RST is asserted: CORE stays as it was. -/
  | quiet (op : HostOp) (t : State) (hcore : SameCore s t) (hwr : ∀ idx w, op = .wr idx w → s.rst = true)
      (hrst : ∀ b, op ≠ .setRst b) : HostMove s op t
  /-- A write that raises an error; at KEYk or DATAk only while CORE is busy (20_memory.md R65). -/
  | error (idx : RegIndex) (w : Word) (code : ErrorCode) (hr : s.rst = false) (hctrl : idx ≠ 1#6)
      (hstatus : idx ≠ 2#6) (hbusy : ∀ k, idx = keyIndex k ∨ idx = dataIndex k → s.phase ≠ .idle) : HostMove s (.wr idx w) (raiseError code s)
  /-- A CTRL write. -/
  | ctrl (w : Word) (hr : s.rst = false) : HostMove s (.wr 1#6 w) (ctrlWrite w s)
  /-- A STATUS write. -/
  | status (w : Word) (hr : s.rst = false) : HostMove s (.wr 2#6 w) (acknowledge w s)
  /-- A KEY write that is performed. -/
  | key (k : LaneIdx) (w : Word) (hr : s.rst = false) (hi : s.phase = .idle) :
      HostMove s (.wr (keyIndex k) w) { s with key := setWord s.key k w, keyMask := setMaskBit s.keyMask k }
  /-- A DATA write that is performed. -/
  | data (k : LaneIdx) (w : Word) (hr : s.rst = false) (hi : s.phase = .idle) :
      HostMove s (.wr (dataIndex k) w) { s with data := setWord s.data k w, dataMask := setMaskBit s.dataMask k }
  /-- A CMD write whose command is accepted. -/
  | accepted (w : Word) (i : Instr) (hr : s.rst = false) (hi : s.phase = .idle) (hd : decode w = .ok i)
      (hk : needsKey i = true → maskFull s.keyMask = true) (hm : needsData i = true → maskFull s.dataMask = true) :
      HostMove s (.wr 3#6 w) (accept (encode i) s)
  /-- RST driven to a level. -/
  | rst (level : Bool) : HostMove s (.setRst level) (driveRst level s)

theorem hostRead_sameCore (idx : RegIndex) (name : String) (s : State) : SameCore s (hostRead idx name s) := by
  unfold hostRead
  rcases regRead_cases idx s with h | h <;> rw [h] <;> constructor <;> rfl

/-- The move of a CMD write. -/
theorem issueWord_move (w : Word) (s t : State) (hr : s.rst = false) (h : issueWord w s = .next t) :
    HostMove s (.wr 3#6 w) t := by
  rcases issueWord_cases w s with ⟨_, he⟩ | ⟨_, _, he⟩ | ⟨hb, i, hd, he⟩ <;> rw [he] at h
  · cases h
    exact .error _ _ _ hr (by decide) (by decide) (fun k hk => absurd hk (not_operand_index 3#6 (by decide) (by decide) k))
  · cases h
    exact .error _ _ _ hr (by decide) (by decide) (fun k hk => absurd hk (not_operand_index 3#6 (by decide) (by decide) k))
  · have hi : s.phase = .idle := by
      unfold busyBit at hb
      cases hp : s.phase with
      | idle => rfl
      | busy c => simp [hp] at hb
    rw [exec_eq_command, command, hi] at h
    cases h
    rcases issue_cases (needsKey i) (needsData i) (encode i) s with ⟨_, _, hc⟩ | ⟨_, _, _, hc⟩ | ⟨hk, hm, hc⟩ <;> rw [hc]
    · exact .error _ _ _ hr (by decide) (by decide) (fun k hk => absurd hk (not_operand_index 3#6 (by decide) (by decide) k))
    · exact .error _ _ _ hr (by decide) (by decide) (fun k hk => absurd hk (not_operand_index 3#6 (by decide) (by decide) k))
    · exact .accepted w i hr hi hd hk hm

/-- The move of a write. -/
theorem regWrite_move (idx : RegIndex) (w : Word) (s t : State) (h : regWrite idx w s = .next t) :
    HostMove s (.wr idx w) t := by
  cases hr : s.rst with
  | true =>
    simp only [regWrite, hr, if_true, Host.Outcome.next.injEq] at h
    subst h
    exact .quiet _ _ (.refl s) (fun _ _ _ => hr) (fun _ => by simp)
  | false =>
    have hidle : busyBit s = false → s.phase = .idle := by
      unfold busyBit
      cases s.phase <;> simp
    have hnotIdle : busyBit s = true → s.phase ≠ .idle := by
      unfold busyBit
      cases s.phase <;> simp
    simp only [regWrite, hr, Bool.false_eq_true, if_false] at h
    split at h
    case h_4 heq => exact regOf_cmd idx heq ▸ issueWord_move w s t hr h
    all_goals
      rename_i heq
      cases h
    · exact .error _ _ _ hr (by rintro rfl; simp [regOf] at heq) (by rintro rfl; simp [regOf] at heq)
        (fun k hk => absurd hk (not_operand_index idx (by simp [heq]) (by simp [heq]) k))
    · exact regOf_ctrl idx heq ▸ .ctrl w hr
    · exact regOf_status idx heq ▸ .status w hr
    · rename_i k
      rw [regOf_key idx k heq]
      unfold writeKey
      split
      · exact .error _ _ _ hr (keyIndex_ne k).1 (keyIndex_ne k).2 (fun _ _ => hnotIdle ‹_›)
      · exact .key k w hr (hidle (by simpa using ‹¬ busyBit s = true›))
    · rename_i k
      rw [regOf_data idx k heq]
      unfold writeData
      split
      · exact .error _ _ _ hr (dataIndex_ne k).1 (dataIndex_ne k).2 (fun _ _ => hnotIdle ‹_›)
      · exact .data k w hr (hidle (by simpa using ‹¬ busyBit s = true›))
    · exact .error _ _ _ hr (by rintro rfl; simp [regOf] at heq) (by rintro rfl; simp [regOf] at heq)
        (fun k hk => absurd hk (not_operand_index idx (by simp [heq]) (by simp [heq]) k))
    · exact .error _ _ _ hr (by rintro rfl; simp [regOf] at heq) (by rintro rfl; simp [regOf] at heq)
        (fun k hk => absurd hk (not_operand_index idx (by simp [heq]) (by simp [heq]) k))
    · exact .error _ _ _ hr (by rintro rfl; simp [regOf] at heq) (by rintro rfl; simp [regOf] at heq)
        (fun k hk => absurd hk (not_operand_index idx (by simp [heq]) (by simp [heq]) k))

/-- Every operation of the host is one of the moves. -/
theorem hostOp_move (op : HostOp) (s t : State) (h : hostOp op s = .next t) : HostMove s op t := by
  cases op with
  | wr idx w => exact regWrite_move idx w s t h
  | rd idx name =>
    cases h
    exact .quiet _ _ (hostRead_sameCore idx name s) (fun _ _ he => by cases he) (fun _ => by simp)
  | wait =>
    cases h
    refine .quiet _ _ ?_ (fun _ _ he => by cases he) (fun _ => by simp)
    unfold hostWait
    have hc := hostRead_sameCore statusIndex "s" s
    split
    · exact { hc with }
    · exact hc
  | waitIrq =>
    cases h
    refine .quiet _ _ ?_ (fun _ _ he => by cases he) (fun _ => by simp)
    unfold hostWaitIrq
    split <;> constructor <;> rfl
  | check =>
    cases h
    refine .quiet _ _ ?_ (fun _ _ he => by cases he) (fun _ => by simp)
    unfold hostCheck
    repeat' split
    all_goals constructor <;> rfl
  | callEnter refusal =>
    cases h
    exact .quiet _ _ (by constructor <;> rfl) (fun _ _ he => by cases he) (fun _ => by simp)
  | callLeave dir =>
    cases h
    exact .quiet _ _ (by constructor <;> rfl) (fun _ _ he => by cases he) (fun _ => by simp)
  | setRst level =>
    cases h
    exact .rst level

/-- What a step can do. -/
inductive StepMove (s : State) : State → Prop
  /-- In reset, the host has nothing to do. -/
  | resetWait (hr : s.rst = true) (hh : s.host = []) : StepMove s (resetCore s)
  /-- In reset, the host moves. -/
  | resetHost (t : State) (op : HostOp) (rest : List HostOp) (hr : s.rst = true) (hh : s.host = op :: rest)
      (hm : HostMove { resetCore s with host := rest } op t) : StepMove s t
  /-- Idle, or busy with latency left, the host has nothing to do. -/
  | wait (lat : Nat) (hr : s.rst = false) (hh : s.host = []) (hc : completes s = none)
      (hl : (s.phase = .idle ∧ lat = s.lat) ∨ ((∃ w, s.phase = .busy w) ∧ s.lat = lat + 1)) :
      StepMove s { s with lat := lat }
  /-- Idle, or busy with latency left, the host moves. -/
  | host (t : State) (lat : Nat) (op : HostOp) (rest : List HostOp) (hr : s.rst = false) (hh : s.host = op :: rest)
      (hc : completes s = none) (hop : hostMoves s = some op)
      (hl : (s.phase = .idle ∧ lat = s.lat) ∨ ((∃ w, s.phase = .busy w) ∧ s.lat = lat + 1))
      (hm : HostMove { s with lat := lat, host := rest } op t) : StepMove s t
  /-- The accepted command completes. -/
  | completion (w : Word) (i : Instr) (hr : s.rst = false) (hp : s.phase = .busy w) (hl : s.lat = 0)
      (hd : decode w = .ok i) (hc : completes s = some i) (hop : hostMoves s = none) :
      StepMove s (complete (effectOf Config.cfg i) s)

/-- Every step that goes on is one of the moves. -/
theorem step_move (s t : State) (h : step s = .next t) : StepMove s t := by
  rcases step_cases s with ⟨hr, he⟩ | ⟨hr, hp, he⟩ | ⟨hr, ⟨w, hp⟩, hl, he⟩ | ⟨hr, hl, w, hp, he⟩ <;> rw [he] at h
  · unfold hostStep at h
    split at h
    · cases h
      exact .resetWait hr (by simpa using ‹(resetCore s).host = []›)
    · rename_i op rest heq
      exact .resetHost t op rest hr (by simpa using heq) (hostOp_move op _ t h)
  · have hc : completes s = none := by simp [completes, hp]
    unfold hostStep at h
    split at h
    · cases h
      exact .wait s.lat hr ‹_› hc (.inl ⟨hp, rfl⟩)
    · rename_i op rest heq
      exact .host t s.lat op rest hr heq hc (by simp [hostMoves, hp, heq]) (.inl ⟨hp, rfl⟩) (hostOp_move op _ t h)
  · have hc : completes s = none := by simp [completes, hp, hl]
    have hlat : s.lat = s.lat - 1 + 1 := by omega
    unfold hostStep at h
    split at h
    · cases h
      exact .wait (s.lat - 1) hr ‹_› hc (.inr ⟨⟨w, hp⟩, hlat⟩)
    · rename_i op rest heq
      exact .host t (s.lat - 1) op rest hr heq hc (by simp [hostMoves, hp, hl]; simpa using congrArg List.head? heq)
        (.inr ⟨⟨w, hp⟩, hlat⟩) (hostOp_move op _ t h)
  · unfold completion at h
    split at h
    · rename_i i hd
      rw [exec_eq_command, command, hp] at h
      cases h
      exact .completion w i hr hp hl hd (by simp [completes, hp, hr, hl, hd, Except.toOption])
        (by simp [hostMoves, hp, hr, hl])
    · cases h

end Sys2Proof.Machine
end

