-- ==== Sys2Proof/Laws/PerInstr.lean ====
section
/-! SUPPORT. Statements for every instruction, one lemma per constructor. -/

namespace Sys2Proof.Laws

/-- The row of an instruction in the match/mask table: its mask (30_encoding.md R82). -/
def rowMask : Instr → Word
  | .nop => 0xFFFFFFFF#32
  | .enc => 0xFFFFFFFF#32
  | .dec => 0xFFFFFFFF#32
  | .encr _ => 0xFFFFFF0F#32
  | .decr _ => 0xFFFFFF0F#32
  | .subkey _ => 0xFFFFFF0F#32
  | .lanef _ _ _ => 0xFFFFCC0F#32
  | .lanefi _ _ _ => 0xFFFFCC0F#32
  | .clear => 0xFFFFFFFF#32

/-- The row of an instruction in the match/mask table: its match (30_encoding.md R82). -/
def rowMatch : Instr → Word
  | .nop => 0x00000000#32
  | .enc => 0x00000001#32
  | .dec => 0x00000002#32
  | .encr _ => 0x00000003#32
  | .decr _ => 0x00000004#32
  | .subkey _ => 0x00000005#32
  | .lanef _ _ _ => 0x00000006#32
  | .lanefi _ _ _ => 0x00000406#32
  | .clear => 0x00000007#32

/-- The encoding of an instruction selects its own row of the match/mask table (30_encoding.md R82). -/
def EncodingInRow.Statement (i : Instr) : Prop := encode i &&& rowMask i = rowMatch i

theorem EncodingInRow.nop : EncodingInRow.Statement .nop := by unfold EncodingInRow.Statement; decide

theorem EncodingInRow.enc : EncodingInRow.Statement .enc := by unfold EncodingInRow.Statement; decide

theorem EncodingInRow.dec : EncodingInRow.Statement .dec := by unfold EncodingInRow.Statement; decide

theorem EncodingInRow.encr (r : RoundIdx) : EncodingInRow.Statement (.encr r) := by
  unfold EncodingInRow.Statement; revert r; decide

theorem EncodingInRow.decr (r : RoundIdx) : EncodingInRow.Statement (.decr r) := by
  unfold EncodingInRow.Statement; revert r; decide

theorem EncodingInRow.subkey (r : RoundIdx) : EncodingInRow.Statement (.subkey r) := by
  unfold EncodingInRow.Statement; revert r; decide

theorem EncodingInRow.lanef (fn : LaneFn) (k : LaneIdx) (r : RoundIdx) :
    EncodingInRow.Statement (.lanef fn k r) := by
  unfold EncodingInRow.Statement; cases fn <;> revert k r <;> decide

theorem EncodingInRow.lanefi (fn : LaneFn) (k : LaneIdx) (r : RoundIdx) :
    EncodingInRow.Statement (.lanefi fn k r) := by
  unfold EncodingInRow.Statement; cases fn <;> revert k r <;> decide

theorem EncodingInRow.clear : EncodingInRow.Statement .clear := by unfold EncodingInRow.Statement; decide

end Sys2Proof.Laws
end

