-- ==== Sys2Proof/Laws/WellFormed.lean ====
section
/-! SUPPORT. Every instruction is well-formed: its operand types hold no other values (30_encoding.md R83, R84). -/

namespace Sys2Proof.Laws

theorem round_number_range (r : RoundIdx) : roundInRange r.number = true := by
  simp [roundInRange, RoundIdx.number]

theorem instr_wellFormed (i : Instr) : i.wellFormed = true := by
  cases i <;> simp [Instr.wellFormed, round_number_range, laneInRange] <;> omega

end Sys2Proof.Laws
end

