-- ==== Sys2Proof/Tests/Slice0.lean ====
section
/-! SUPPORT. The model's own tests. Every expected value is the spec's: the vectors V1 to V12 of 95_test_vectors.md, the
encoding of 30_encoding.md, or a table of a rule named at the test. Then one witness for the hypotheses of each statement
of Certificates/Slice0/Obligations.lean that has any. -/

namespace Sys2Proof.Tests

open Sys2Proof.Machine

/-! ## Helpers: the spec's test configuration TC1, and small states -/

/-- TC1 (95_test_vectors.md section 2), positions counted from 0. -/
def tc1 : Cfg where
  s1 := ⟨fun x => 5#8 * x + 0x63#8, fun y => 205#8 * (y - 0x63#8), by
    unfold Function.LeftInverse; decide +kernel, by unfold Function.RightInverse Function.LeftInverse; decide +kernel⟩
  s2 := ⟨fun x => x.rotateLeft 3 ^^^ 0x1F#8, fun y => (y ^^^ 0x1F#8).rotateRight 3, by
    unfold Function.LeftInverse; decide +kernel, by unfold Function.RightInverse Function.LeftInverse; decide +kernel⟩
  s3 := ⟨fun x => 167#8 * x + 0x2B#8, fun y => 23#8 * (y - 0x2B#8), by
    unfold Function.LeftInverse; decide +kernel, by unfold Function.RightInverse Function.LeftInverse; decide +kernel⟩
  s4 := ⟨fun x => (x ^^^ 0x5C#8).rotateLeft 1, fun y => y.rotateRight 1 ^^^ 0x5C#8, by
    unfold Function.LeftInverse; decide +kernel, by unfold Function.RightInverse Function.LeftInverse; decide +kernel⟩
  pOuter := ⟨fun i => 7 * i + 3, fun j => 7 * (j - 3), by decide, by decide⟩
  pInner := ⟨fun i => 13 * i + 5, fun j => 5 * (j - 5), by decide, by decide⟩
  rc j := BitVec.ofNat 8 (27 * (j.val + 1))

/-- K = 00..0F. -/
def keyK : Block := Vector.ofFn fun i => BitVec.ofNat 8 i.val

/-- B0 = 00 11 22 .. FF. -/
def blockB0 : Block := Vector.ofFn fun i => BitVec.ofNat 8 (17 * i.val)

/-- The lane 00 11 22 33. -/
def lane0 : Lane := #v[0x00#8, 0x11#8, 0x22#8, 0x33#8]

/-- Idle, key K and block B0, with the given masks. -/
def loaded (keyMask dataMask : BitVec 4) : State :=
  { State.reset with key := keyK, data := blockB0, keyMask := keyMask, dataMask := dataMask }

/-- Busy with a command word, with `lat` cycles left and operations of the host to come. -/
def running (w : Word) (lat : Nat) (host : List HostOp) : State :=
  { loaded 0xF#4 0xF#4 with phase := .busy w, lat := lat, host := host }

/-- STATUS after an outcome, if it goes on. -/
def statusAfter : Host.Outcome State Fault Refusal → Option Word
  | .next t => some (statusWord t)
  | .fault _ => none
  | .refused _ => none

/-- STATUS after a write. -/
def writeStatus (idx : RegIndex) (w : Word) (s : State) : Option Word := statusAfter (regWrite idx w s)

/-- Does an outcome go on? -/
def goesOn (o : Host.Outcome State Fault Refusal) : Bool := (statusAfter o).isSome

/-- The four words of a block. -/
def wordsOf (b : Block) : List Word := [wordOf b 0, wordOf b 1, wordOf b 2, wordOf b 3]

/-! ## WellFormed: an ill-formed term for each check -/

/-- r outside 1..16, n outside 1..4, k outside 0..3 (30_encoding.md R89). -/
theorem test_operands_out_of_range_refused :
    (AsmCmd.encr 0).wellFormed = false ∧ (AsmCmd.decr 17).wellFormed = false ∧
      (AsmCmd.subkey 0).wellFormed = false ∧ (AsmCmd.lanef 0 0 1).wellFormed = false ∧
      (AsmCmd.lanef 5 0 1).wellFormed = false ∧ (AsmCmd.lanef 1 4 1).wellFormed = false ∧
      (AsmCmd.lanef 1 0 17).wellFormed = false ∧ (AsmCmd.lanefi 0 3 16).wellFormed = false ∧
      (AsmCmd.lanefi 4 4 16).wellFormed = false ∧ (AsmCmd.lanefi 4 3 0).wellFormed = false ∧
      (AsmCmd.lanefi 4 3 16).wellFormed = true := by decide

/-- The identity tables TC0 (95_test_vectors.md section 2). -/
def tc0Tables : CfgTables :=
  let bytes := (List.range 256).map (BitVec.ofNat 8)
  { s1 := bytes
    s2 := bytes
    s3 := bytes
    s4 := bytes
    pOuter := (List.range 16).map (· + 1)
    pInner := (List.range 32).map (· + 1)
    rc := List.replicate 16 0#8 }

/-- A table that repeats a value, or is too short, is no bijection of the bytes. -/
theorem test_repeated_or_short_substitution_refused :
    ¬ CfgTables.SBijective (List.replicate 256 0#8) ∧ ¬ CfgTables.SBijective (tc0Tables.s1.take 255) := by
  constructor
  · exact fun h => absurd (h.2.2 1) (by decide +kernel)
  · exact fun h => absurd h.1 (by decide +kernel)

/-- P_OUTER and P_INNER with an entry 0, an entry past the end, a repeat, or an entry missing; RC with 15 entries. -/
theorem test_bad_permutations_and_constants_refused :
    ¬ CfgTables.POuterPerm { tc0Tables with pOuter := List.range 16 } ∧
      ¬ CfgTables.POuterPerm { tc0Tables with pOuter := (List.range 16).map (· + 2) } ∧
      ¬ CfgTables.POuterPerm { tc0Tables with pOuter := List.replicate 16 1 } ∧
      ¬ CfgTables.PInnerPerm { tc0Tables with pInner := List.range 32 } ∧
      ¬ CfgTables.PInnerPerm { tc0Tables with pInner := List.replicate 32 32 } ∧
      ¬ CfgTables.PInnerPerm { tc0Tables with pInner := (List.range 31).map (· + 1) } ∧
      ¬ CfgTables.RcTotal { tc0Tables with rc := List.replicate 15 0#8 } := by decide +kernel

/-- The reason a CORE is not built. -/
def buildError (t : CfgTables) : Option TableError :=
  match buildCfg t with
  | .ok _ => none
  | .error e => some e

/-- WF(TC0) holds (95_test_vectors.md section 2). -/
theorem test_tc0_is_well_formed : tc0Tables.WF := by
  have h : CfgTables.SBijective ((List.range 256).map (BitVec.ofNat 8)) := by
    refine ⟨by simp, List.Nodup.map_on ?_ List.nodup_range, ?_⟩
    · intro x hx y hy he
      have hv := congrArg BitVec.toNat he
      rw [List.mem_range] at hx hy
      simp only [BitVec.toNat_ofNat] at hv
      omega
    · intro x
      exact List.mem_map.mpr ⟨x.val, List.mem_range.mpr x.isLt, BitVec.eq_of_toNat_eq (by simp)⟩
  exact ⟨h, h, h, h, by decide +kernel, by decide +kernel, by decide +kernel⟩

/-- Tables that pass WF build. -/
theorem test_well_formed_tables_build (t : CfgTables) (h : t.WF) : ∃ c, buildCfg t = .ok c := by
  obtain ⟨h1, h2, h3, h4, hO, hI, hR⟩ := h
  simp only [buildCfg, dif_pos h1, dif_pos h2, dif_pos h3, dif_pos h4, dif_pos hO, dif_pos hI, dif_pos hR]
  exact ⟨_, rfl⟩

/-- buildCfg refuses at the first check that fails (00_scope.md R11), in the order of WF(CFG). -/
theorem test_build_names_the_failed_check (t : CfgTables) :
    (¬ CfgTables.SBijective t.s1 → buildError t = some .s1NotBijective) ∧
      (CfgTables.SBijective t.s1 → ¬ CfgTables.SBijective t.s2 → buildError t = some .s2NotBijective) ∧
      (t.WF → buildError { t with rc := [] } = some .rcNotTotal) := by
  refine ⟨fun h => ?_, fun h1 h2 => ?_, fun h => ?_⟩
  · simp only [buildError, buildCfg, dif_neg h]
  · simp only [buildError, buildCfg, dif_pos h1, dif_neg h2]
  · obtain ⟨h1, h2, h3, h4, hO, hI, -⟩ := h
    have hO' : CfgTables.POuterPerm { t with rc := [] } := hO
    have hI' : CfgTables.PInnerPerm { t with rc := [] } := hI
    have hR' : ¬ CfgTables.RcTotal { t with rc := [] } := fun h => absurd (show 0 = 16 from h) (by decide)
    simp only [buildError, buildCfg, dif_pos h1, dif_pos h2, dif_pos h3, dif_pos h4, dif_pos hO', dif_pos hI',
      dif_neg hR']

/-! ## Decode: words written out from the encoding (30_encoding.md R81, R82; V8) -/

theorem test_decode_plain_commands :
    decode 0x00000000#32 = .ok .nop ∧ decode 0x00000001#32 = .ok .enc ∧ decode 0x00000002#32 = .ok .dec ∧
      decode 0x00000007#32 = .ok .clear := by decide

/-- RIDX is bits 7:4, and r = RIDX + 1. -/
theorem test_decode_round_commands :
    decode 0x00000003#32 = .ok (.encr 0) ∧ decode 0x000000F3#32 = .ok (.encr 15) ∧
      decode 0x000000F4#32 = .ok (.decr 15) ∧ decode 0x00000045#32 = .ok (.subkey 4) := by decide

/-- FN is bits 9:8, INV bit 10, LANE bits 13:12. -/
theorem test_decode_lane_commands :
    decode 0x00000006#32 = .ok (.lanef .f1 0 0) ∧ decode 0x00002206#32 = .ok (.lanef .f3 2 0) ∧
      decode 0x00000486#32 = .ok (.lanefi .f1 0 8) ∧ decode 0x000037F6#32 = .ok (.lanefi .f4 3 15) ∧
      decode 0x00001156#32 = .ok (.lanef .f2 1 5) := by decide

/-- The ILLEGAL words of V8, by reason. -/
theorem test_decode_refuses_illegal_words :
    decode 0x00000008#32 = .error .reservedOpcode ∧ decode 0x0000000F#32 = .error .reservedOpcode ∧
      decode 0xFFFFFFFF#32 = .error .reservedOpcode ∧ decode 0x00000010#32 = .error .unusedField ∧
      decode 0x00000011#32 = .error .unusedField ∧ decode 0x00000103#32 = .error .unusedField ∧
      decode 0x00000017#32 = .error .unusedField ∧ decode 0x80000005#32 = .error .reservedBits ∧
      decode 0x00000806#32 = .error .reservedBits ∧ decode 0x00004006#32 = .error .reservedBits := by decide

/-- The encoder writes the same words. -/
theorem test_encode_gives_the_words_of_the_table :
    encode (.encr 15) = 0x000000F3#32 ∧ encode (.subkey 4) = 0x00000045#32 ∧
      encode (.lanef .f3 2 0) = 0x00002206#32 ∧ encode (.lanefi .f4 3 15) = 0x000037F6#32 ∧
      encode .clear = 0x00000007#32 := by decide

/-! ## The commands, one step each -/

/-- V10.18: NOP is accepted at reset; it completes with DONE = 1 alone. -/
theorem test_nop : writeStatus 3#6 0x00000000#32 State.reset = some 0x00000001#32 ∧
    statusAfter (exec .nop (running 0x00000000#32 0 [])) = some 0x0000FF02#32 := by decide

/-- V10.1, V10.2, V10.3 and P1 rows 11 and 13: ENC's issue, and DATAMASK after its completion. -/
theorem test_enc_status :
    writeStatus 3#6 0x00000001#32 State.reset = some 0x00000020#32 ∧
      writeStatus 3#6 0x00000001#32 (loaded 0xF#4 0x0#4) = some 0x00000F30#32 ∧
      writeStatus 3#6 0x00000001#32 (loaded 0xF#4 0x3#4) = some 0x00003F30#32 ∧
      writeStatus 3#6 0x00000001#32 (loaded 0xF#4 0xF#4) = some 0x0000FF01#32 ∧
      statusAfter (exec .enc (running 0x00000001#32 0 [])) = some 0x00000F02#32 := by decide

/-- TC0, the identity tables (95_test_vectors.md section 2). -/
def tc0 : Cfg where
  s1 := Equiv.refl _
  s2 := Equiv.refl _
  s3 := Equiv.refl _
  s4 := Equiv.refl _
  pOuter := Equiv.refl _
  pInner := Equiv.refl _
  rc _ := 0#8

/-- V6.2 row 2: ENC begins with rounds 1 and 2, of the sixteen in order. -/
theorem test_enc_rounds :
    allRounds = [0, 1, 2, 3, 4, 5, 6, 7, 8, 9, 10, 11, 12, 13, 14, 15] ∧
      wordsOf (round tc1 (round tc1 blockB0 keyK 0) keyK 1) =
        [0x64B109AE#32, 0x5D42C3D0#32, 0x53DC4B5A#32, 0xB675302B#32] := by decide +kernel

/-- P2 row 8: DEC's STATUS; V6.2 row 16 to row 14: DEC begins with inverse rounds 16 and 15. -/
theorem test_dec :
    statusAfter (exec .dec (running 0x00000002#32 0 [])) = some 0x00000F02#32 ∧
      allRounds.reverse.take 2 = [15, 14] ∧
      wordsOf (roundInv tc1 (roundInv tc1 (joinLanes (bytes4 0x01307CD0#32) (bytes4 0x728C44E1#32)
        (bytes4 0x123F5281#32) (bytes4 0x3E89731E#32)) keyK 15) keyK 14) =
        [0xD8AD9B60#32, 0x8E4A9251#32, 0x51B89A4E#32, 0xD5132BAE#32] := by decide +kernel

/-- V6.2 row 1, with both masks kept. -/
theorem test_encr : wordsOf (encrEffect tc1 0 (loaded 0xF#4 0xF#4)).data =
      [0xE734E85E#32, 0xF2AD8CDC#32, 0x28AB3907#32, 0xC8CCF411#32] ∧
    statusAfter (exec (.encr 0) (running 0x00000003#32 0 [])) = some 0x0000FF02#32 := by decide +kernel

/-- V6.2 row 1 read upward. -/
theorem test_decr : wordsOf (decrEffect tc1 0 { loaded 0xF#4 0xF#4 with
      data := joinLanes (bytes4 0xE734E85E#32) (bytes4 0xF2AD8CDC#32) (bytes4 0x28AB3907#32) (bytes4 0xC8CCF411#32) }).data =
      [0x00112233#32, 0x44556677#32, 0x8899AABB#32, 0xCCDDEEFF#32] ∧
    statusAfter (exec (.decr 0) (running 0x00000004#32 0 [])) = some 0x0000FF02#32 := by decide +kernel

/-- V1 rows 6 and 14: group 1, rotations 1 and 3, rot 24. -/
theorem test_subkey :
    (subkeyEffect tc1 5 (loaded 0xF#4 0x0#4)).skhi = 0x000518A2#32 ∧
      (subkeyEffect tc1 5 (loaded 0xF#4 0x0#4)).sklo = 0x05060704#32 ∧
      (subkeyEffect tc1 13 (loaded 0xF#4 0x0#4)).skhi = 0x000D187A#32 ∧
      (subkeyEffect tc1 13 (loaded 0xF#4 0x0#4)).sklo = 0x07040506#32 := by decide +kernel

/-- V10.4 and P3 row 3: SUBKEY needs the key and not the block. -/
theorem test_subkey_issue : writeStatus 3#6 0x00000005#32 State.reset = some 0x00000020#32 ∧
    writeStatus 3#6 0x00000055#32 (loaded 0xF#4 0x0#4) = some 0x00000F01#32 := by decide

/-- V5: F1 on lane 3, F2 on lane 1, F3 on lane 2, F4 on lane 0, round 1; the other lanes are kept. -/
theorem test_lanef :
    wordsOf (lanefEffect tc1 .f1 3 0 (loaded 0xF#4 0xF#4)).data =
        [0x00112233#32, 0x44556677#32, 0x8899AABB#32, 0xEBFE2DA8#32] ∧
      wordsOf (lanefEffect tc1 .f2 1 0 (loaded 0xF#4 0xF#4)).data =
        [0x00112233#32, 0xE8CAAC8E#32, 0x8899AABB#32, 0xCCDDEEFF#32] ∧
      wordsOf (lanefEffect tc1 .f3 2 0 (loaded 0xF#4 0xF#4)).data =
        [0x00112233#32, 0x44556677#32, 0x0BDBC3C9#32, 0xCCDDEEFF#32] ∧
      wordsOf (lanefEffect tc1 .f4 0 0 (loaded 0xF#4 0xF#4)).data =
        [0x639759DE#32, 0x44556677#32, 0x8899AABB#32, 0xCCDDEEFF#32] := by decide +kernel

/-- V10.5: the keyless F1 check order; F4 needs the key too (41_round_functions.md R135). -/
theorem test_lanef_issue : writeStatus 3#6 0x00000006#32 (loaded 0x7#4 0xF#4) = some 0x0000F720#32 ∧
    writeStatus 3#6 0x00000306#32 (loaded 0x7#4 0xF#4) = some 0x0000F720#32 := by decide

/-- V5, the LANEFI column. -/
theorem test_lanefi :
    wordsOf (lanefiEffect tc1 .f1 3 0 (loaded 0xF#4 0xF#4)).data =
        [0x00112233#32, 0x44556677#32, 0x8899AABB#32, 0x671ED423#32] ∧
      wordsOf (lanefiEffect tc1 .f2 1 0 (loaded 0xF#4 0xF#4)).data =
        [0x00112233#32, 0x3AB32BA2#32, 0x8899AABB#32, 0xCCDDEEFF#32] ∧
      wordsOf (lanefiEffect tc1 .f3 2 0 (loaded 0xF#4 0xF#4)).data =
        [0x00112233#32, 0x44556677#32, 0xA1D16B82#32, 0xCCDDEEFF#32] ∧
      wordsOf (lanefiEffect tc1 .f4 0 0 (loaded 0xF#4 0xF#4)).data =
        [0xB9C131C5#32, 0x44556677#32, 0x8899AABB#32, 0xCCDDEEFF#32] := by decide +kernel

/-- P2 rows 13 to 15: CLEAR leaves both masks 0 and DATA reading 0. -/
theorem test_clear : statusAfter (exec .clear (running 0x00000007#32 0 [])) = some 0x00000002#32 ∧
    wordsOf (clearEffect (loaded 0xF#4 0xF#4)).data = [0#32, 0#32, 0#32, 0#32] := by decide

/-! ## Round functions (V3, V4) and layers (V6.0) -/

theorem test_f1_rotations :
    f1 tc1 lane0 #v[0x87#8, 1#8, 2#8, 3#8, 0#8] = bytes4 0x639759DE#32 ∧
      f1 tc1 lane0 #v[0xA2#8, 5#8, 6#8, 7#8, 4#8] = bytes4 0x97_59_DE_63#32 ∧
      f1 tc1 lane0 #v[0x1B#8, 0#8, 1#8, 0#8, 0x1F#8] = bytes4 0xC72EB3BC#32 ∧
      f1Inv tc1 (bytes4 0xC72EB3BC#32) #v[0x1B#8, 0#8, 1#8, 0#8, 0x1F#8] = lane0 := by decide +kernel

theorem test_f2_bit_positions :
    pin tc1 (bytes4 0x80000000#32) = bytes4 0x01000000#32 ∧
      pin tc1 (bytes4 0x00000001#32) = bytes4 0x20000000#32 ∧
      pinInv tc1 (bytes4 0x80000000#32) = bytes4 0x04000000#32 ∧
      pinInv tc1 (bytes4 0x00000001#32) = bytes4 0x00000080#32 := by decide +kernel

theorem test_outer_layers :
    wordsOf (pout tc1 keyK) = [0x030A0108#32, 0x0F060D04#32, 0x0B020900#32, 0x070E050C#32] ∧
      wordsOf (poutInv tc1 keyK) = [0x0B020900#32, 0x070E050C#32, 0x030A0108#32, 0x0F060D04#32] ∧
      wordsOf (xrc blockB0 0x1B#8) = [0x1B0A3928#32, 0x5F4E7D6C#32, 0x9382B1A0#32, 0xD7C6F5E4#32] := by
  decide +kernel

/-! ## Errors, STATUS and the interrupt (V10, V11) -/

theorem test_error_codes :
    writeStatus 3#6 0x00000008#32 State.reset = some 0x00000010#32 ∧
      writeStatus 3#6 0x00000011#32 State.reset = some 0x00000010#32 ∧
      writeStatus 3#6 0x00000008#32 (running 0x00000001#32 1 []) = some 0x0000FF41#32 ∧
      writeStatus 8#6 0xFFFFFFFF#32 (running 0x00000001#32 1 []) = some 0x0000FF41#32 ∧
      writeStatus 0#6 0x00000000#32 State.reset = some 0x00000050#32 ∧
      writeStatus 12#6 0x00000001#32 State.reset = some 0x00000050#32 ∧
      writeStatus 63#6 0x00000000#32 State.reset = some 0x00000050#32 := by decide

theorem test_first_error_and_acknowledge :
    writeStatus 3#6 0x00000008#32 { State.reset with err := 2#4 } = some 0x00000028#32 ∧
      writeStatus 2#6 0x00000004#32 { State.reset with err := 2#4, ovf := true } = some 0x00000000#32 ∧
      writeStatus 2#6 0xFFFFFFFF#32 State.reset = some 0x00000000#32 ∧
      writeStatus 2#6 0x00000002#32 { State.reset with err := 2#4, done := true } = some 0x00000020#32 := by decide

/-- The seven rows of V11. -/
theorem test_irq :
    irq { State.reset with done := true, err := 5#4 } = false ∧
      irq { State.reset with ieDone := true, done := true } = true ∧
      irq { State.reset with ieDone := true, err := 3#4 } = false ∧
      irq { State.reset with ieErr := true, err := 3#4 } = true ∧
      irq { State.reset with ieErr := true, done := true } = false ∧
      irq { State.reset with ieDone := true, ieErr := true } = false ∧
      irq { State.reset with ieDone := true, ieErr := true, done := true, err := 1#4 } = true := by decide

/-- V12 and V10.17: reads at reset, and KEY reads 0. -/
theorem test_reads :
    (regRead 0#6 State.reset).1 = 0x4E535345#32 ∧ (regRead 14#6 State.reset).1 = 0#32 ∧
      (regRead 4#6 (loaded 0xF#4 0xF#4)).1 = 0#32 ∧ (regRead 9#6 (loaded 0xF#4 0xF#4)).1 = 0x44556677#32 := by decide

/-! ## Steps -/

/-- Each command's word, put where step takes its next instruction from, runs as the first step after reset. -/
theorem test_step_runs_every_command :
    [0x0, 0x1, 0x2, 0xF3, 0xF4, 0x45, 0x2206, 0x486, 0x7].all
      (fun w => goesOn (step (State.reset.withFetchWord 32 w))) = true := by decide +kernel

/-- RST asserted by the host abandons a running command (V12; 70_reset_and_hazards.md R261). -/
theorem test_reset_abandons_command :
    statusAfter (step (running 0x00000001#32 3 [.setRst true])) = some 0x00000000#32 := by decide

/-- P4 row 2: a write of the host, one step. -/
theorem test_host_write_step :
    statusAfter (step { State.reset with host := [.wr 3#6 0x00000001#32] }) = some 0x00000020#32 := by decide

/-! ## The host's driver and the assembler -/

/-- V9.1 and V9.4. -/
theorem test_pad_and_unpad :
    pad [] = (List.range 16).map (fun i => BitVec.ofNat 8 (i + 1)) ∧
      pad [0x41#8] = 0x41#8 :: (List.range 15).map (fun i => BitVec.ofNat 8 (i + 1)) ∧
      unpad [1#8, 2#8, 3#8, 0#8] = .ok [1#8, 2#8, 3#8, 0#8] ∧
      unpad [5#8, 5#8, 5#8] = .error .padLength ∧
      unpad (List.replicate 31 0xAA#8 ++ [17#8]) = .ok (List.replicate 15 0xAA#8) := by decide +kernel

/-- 44_host_driver.md R207: ERR = 2 in the last `s` stops the call there, and what the host does after it goes on. -/
theorem test_device_error_ends_the_call :
    let s := { State.reset with
      reads := [{ name := "s", idx := 2#6, value := 0x00000020#32 }]
      host := [.check, .rd 8#6 "y0", .callLeave .encrypt, .wait] }
    ∃ t, step s = .next t ∧ t.host = [.callLeave .encrypt, .wait] ∧ t.failure = some (.deviceError 2#4) :=
  ⟨_, rfl, by decide, by decide⟩

/-- 44_host_driver.md R201: a call returns nothing of an earlier one, neither its readings nor its failure. -/
theorem test_call_starts_afresh :
    let s := { State.reset with
      reads := [{ name := "y0", idx := 8#6, value := 7#32 }]
      failure := some (.deviceError 2#4) }
    driverResult .encrypt (hostCallEnter none s) = .ok [] ∧
      driverResult .encrypt (hostRead 8#6 "y0" (hostCallEnter none s)) = .ok [0#8, 0#8, 0#8, 0#8] ∧
      driverResult .decrypt (hostCallEnter (some .inputLength) s) = .error .inputLength := by decide

/-- The command lines of 30_encoding.md R89 with their words from V8, and the transaction encodings of R90. -/
theorem test_assembler :
    assembleLine "LANEF F3, L2, 1".toList = some 0x00002206#32 ∧
      assembleLine "lanefi f4, l3, 16".toList = some 0x000037F6#32 ∧
      assembleLine "ENCR 17".toList = none ∧
      assembleHostLine "WR KEY0, 0x00010203".toList = some [.wr 4#6 0x00010203#32] ∧
      assembleHostLine "RUN SUBKEY 5".toList = some [.wr 3#6 0x00000045#32, .wait] ∧
      transactionText (.wr 8#6 0xFFFFFFFF#32) = some "W 08 FFFFFFFF".toList ∧
      transactionText (.rd 14#6 "x") = some "R 0E".toList := by decide +kernel

/-! ## Witnesses: concrete states and operands that meet the hypotheses of each statement, clause by clause -/

theorem test_witness_DecodeOfEncodeIsInstruction : Instr.wellFormed .nop = true ∧ (Instr.encr 0).wellFormed = true ∧
    (Instr.subkey 15).wellFormed = true ∧ (Instr.lanefi .f4 3 15).wellFormed = true := by decide

theorem test_witness_EncodeOfDecodeIsWord : decode 0x000037F6#32 = .ok (.lanefi .f4 3 15) := by decide

theorem test_witness_OperandsComeFromTheirFields : decode 0x000000F3#32 = .ok (.encr 15) ∧
    decode 0x00000004#32 = .ok (.decr 0) ∧ decode 0x000000F5#32 = .ok (.subkey 15) ∧
    decode 0x00003306#32 = .ok (.lanef .f4 3 0) ∧ decode 0x000004F6#32 = .ok (.lanefi .f1 0 15) := by decide

theorem test_witness_IllegalWordsAreRefused : State.reset.rst = false ∧ State.reset.phase = .idle ∧
    decode 0x00000008#32 = .error .reservedOpcode ∧ ({ State.reset with err := 5#4 } : State).phase = .idle := by decide

/-- The completions: NOP, CLEAR, ENC, DEC, ENCR, DECR, SUBKEY, LANEF and LANEFI each from a state busy with its word. -/
theorem test_witness_completions :
    (running 0x00000000#32 0 []).phase = .busy 0x00000000#32 ∧ goesOn (exec .nop (running 0x00000000#32 0 [])) = true ∧
      goesOn (exec .clear (running 0x00000007#32 0 [])) = true ∧ goesOn (exec .enc (running 0x00000001#32 0 [])) = true ∧
      goesOn (exec .dec (running 0x00000002#32 0 [])) = true ∧
      goesOn (exec (.encr 15) (running 0x000000F3#32 0 [])) = true ∧
      goesOn (exec (.decr 15) (running 0x000000F4#32 0 [])) = true ∧
      goesOn (exec (.subkey 4) (running 0x00000045#32 0 [])) = true ∧
      goesOn (exec (.lanef .f3 2 0) (running 0x00002206#32 0 [])) = true ∧
      goesOn (exec (.lanefi .f1 0 8) (running 0x00000486#32 0 [])) = true := by decide

/-- Busy; idle with an illegal word; idle with a word refused for the key, for the block, and accepted. -/
theorem test_witness_CmdWriteIssuesInOrder :
    (running 0x00000001#32 1 []).rst = false ∧ (running 0x00000001#32 1 []).phase = .busy 0x00000001#32 ∧
      (loaded 0xF#4 0xF#4).rst = false ∧ (loaded 0xF#4 0xF#4).phase = .idle ∧
      decode 0x00000008#32 = .error .reservedOpcode ∧ decode 0x00000001#32 = .ok .enc ∧
      needsKey .enc = true ∧ (loaded 0x7#4 0xF#4).keyMask ≠ 0b1111#4 ∧
      needsData .enc = true ∧ (loaded 0xF#4 0x7#4).dataMask ≠ 0b1111#4 := by decide

theorem test_witness_StepRunsDecodedInstruction :
    (running 0x00000045#32 0 []).phase = .busy 0x00000045#32 ∧ (running 0x00000045#32 0 []).lat = 0 ∧
      decode 0x00000045#32 = .ok (.subkey 4) ∧ (Instr.subkey 4).wellFormed = true ∧
      ({ loaded 0xF#4 0xF#4 with host := [.wr 3#6 0x00000045#32] } : State).host = [.wr 3#6 0x00000045#32] ∧
      goesOn (step { loaded 0xF#4 0xF#4 with host := [.wr 3#6 0x00000045#32] }) = true := by decide

theorem test_witness_FetchWordRunsNext : decode 0x000037F6#32 = .ok (.lanefi .f4 3 15) := by decide

/-- One cycle left, and a DATA write of the host, which is lost. -/
theorem test_witness_BusyHoldsItsOperands :
    (running 0x00000001#32 1 [.wr 8#6 0xFFFFFFFF#32]).rst = false ∧
      (running 0x00000001#32 1 [.wr 8#6 0xFFFFFFFF#32]).phase = .busy 0x00000001#32 ∧
      (running 0x00000001#32 1 [.wr 8#6 0xFFFFFFFF#32]).lat ≠ 0 ∧
      hostMoves (running 0x00000001#32 1 [.wr 8#6 0xFFFFFFFF#32]) ≠ some (.setRst true) ∧
      goesOn (step (running 0x00000001#32 1 [.wr 8#6 0xFFFFFFFF#32])) = true := by decide

/-- Latency 0, and latency 3 with a host that polls. -/
theorem test_witness_AcceptedCommandCompletes :
    (running 0x00000005#32 0 []).phase = .busy 0x00000005#32 ∧ decode 0x00000005#32 = .ok (.subkey 0) ∧
      (running 0x00000005#32 3 [.wait, .wr 4#6 0#32]).rst = false ∧
      ∀ op ∈ (running 0x00000005#32 3 [.wait, .wr 4#6 0#32]).host, op ≠ .setRst true := by decide

/-- Busy, and done with a STATUS write that clears ERR alone. -/
theorem test_witness_AcceptedIsBusyOrDone :
    ((running 0x00000001#32 0 []).phase ≠ .idle ∧ goesOn (step (running 0x00000001#32 0 [])) = true ∧
        ¬ resets (running 0x00000001#32 0 []) ∧ hostMoves (running 0x00000001#32 0 []) = none) ∧
      (goesOn (step { State.reset with done := true, host := [.wr 2#6 4#32] }) = true ∧
        ¬ resets { State.reset with done := true, host := [.wr 2#6 4#32] } ∧
        ∀ w, hostMoves { State.reset with done := true, host := [.wr 2#6 4#32] } = some (.wr 2#6 w) →
          w.getLsbD 1 = false) := by
  refine ⟨⟨by decide, by decide, by unfold resets; decide, by decide⟩, by decide, by unfold resets; decide, ?_⟩
  intro w h
  cases h
  decide

theorem test_witness_WaitRepeatsWhileBusy :
    ({ State.reset with host := [.wait] } : State).host = .wait :: [] ∧ State.reset.phase = .idle ∧
      (running 0x00000001#32 1 [.wait]).host = .wait :: [] ∧
      (running 0x00000001#32 1 [.wait]).phase = .busy 0x00000001#32 ∧ (running 0x00000001#32 1 [.wait]).lat ≠ 0 := by
  decide

/-- ERR and OVF are set and an illegal CMD write comes; a STATUS write with bit 2; reset. -/
theorem test_witness_FirstErrorIsKeptUntilCleared :
    goesOn (step { State.reset with err := 2#4, ovf := true, host := [.wr 3#6 8#32] }) = true ∧
      ¬ resets { State.reset with err := 2#4, ovf := true, host := [.wr 3#6 8#32] } ∧
      (∀ w, hostMoves { State.reset with err := 2#4, ovf := true, host := [.wr 3#6 8#32] } = some (.wr 2#6 w) →
        w.getLsbD 2 = false) ∧ (2#4 : BitVec 4) ≠ 0#4 ∧
      hostMoves { State.reset with err := 2#4, host := [.wr 2#6 4#32] } = some (.wr 2#6 4#32) ∧
      (4#32 : Word).getLsbD 2 = true ∧ ¬ resets { State.reset with err := 2#4, host := [.wr 2#6 4#32] } ∧
      resets { State.reset with err := 2#4, rst := true } := by
  refine ⟨by decide, by unfold resets; decide, ?_, by decide, by decide, by decide, by unfold resets; decide,
    by unfold resets; decide⟩
  intro w h
  cases h

theorem test_witness_write_indices :
    State.reset.rst = false ∧ (0#6 : RegIndex).toNat = 0 ∧ 12 ≤ (12#6 : RegIndex).toNat ∧ 12 ≤ (63#6 : RegIndex).toNat ∧
      (3 ≤ (3#6 : RegIndex).toNat ∧ (7#6 : RegIndex).toNat ≤ 7 ∧ 14 ≤ (14#6 : RegIndex).toNat) ∧
      (running 0x00000001#32 1 []).phase = .busy 0x00000001#32 ∧ (11#6 : RegIndex).toNat ≤ 11 := by decide

/-- A step that records a first error, and one that sets OVF. -/
theorem test_witness_OnlyWritesRaiseErrors :
    statusAfter (step { State.reset with host := [.wr 0#6 0#32] }) = some 0x00000050#32 ∧
      statusAfter (step { State.reset with err := 5#4, host := [.wr 0#6 0#32] }) = some 0x00000058#32 := by decide

/-- Reads: index 14 and 63 of the unmapped ones, idle and busy, 8 and 13 of the busy ones. -/
theorem test_witness_RegReadReturnsTable :
    State.reset.rst = false ∧ 14 ≤ (14#6 : RegIndex).toNat ∧ 14 ≤ (63#6 : RegIndex).toNat ∧
      (loaded 0xF#4 0xF#4).phase = .idle ∧ (running 0x00000001#32 1 []).phase = .busy 0x00000001#32 ∧
      8 ≤ (8#6 : RegIndex).toNat ∧ (13#6 : RegIndex).toNat ≤ 13 := by decide

/-- KEY and DATA writes idle and busy, CTRL, STATUS; a byte of another word. -/
theorem test_witness_operand_writes :
    (loaded 0x0#4 0x0#4).rst = false ∧ (loaded 0x0#4 0x0#4).phase = .idle ∧
      (running 0x00000001#32 1 []).phase = .busy 0x00000001#32 ∧ (15 : Fin 16).val / 4 ≠ (0 : LaneIdx).val ∧
      (3 : LaneIdx) ≠ 0 ∧ goesOn (regWrite 11#6 0x01020304#32 (loaded 0x0#4 0x0#4)) = true := by decide

/-- The writers of the masks: reset, CLEAR's and ENC's completion, a KEY and a DATA write, each with its mask change. -/
theorem test_witness_MasksHaveOnlyTheirWriters :
    (resets { loaded 0xF#4 0xF#4 with rst := true } ∧ goesOn (step { loaded 0xF#4 0xF#4 with rst := true }) = true) ∧
      (¬ resets (running 0x00000007#32 0 []) ∧ completes (running 0x00000007#32 0 []) = some .clear ∧
        statusAfter (step (running 0x00000007#32 0 [])) = some 0x00000002#32) ∧
      (completes (running 0x00000001#32 0 []) = some .enc ∧
        statusAfter (step (running 0x00000001#32 0 [])) = some 0x00000F02#32) ∧
      completes (running 0x00000002#32 0 []) = some .dec ∧
      (hostMoves { State.reset with host := [.wr 4#6 0#32] } = some (.wr (BitVec.ofNat 6 (4 + (0 : LaneIdx).val)) 0#32) ∧
        statusAfter (step { State.reset with host := [.wr 4#6 0#32] }) = some 0x00000100#32) ∧
      (hostMoves { State.reset with host := [.wr 11#6 0#32] } = some (.wr (BitVec.ofNat 6 (8 + (3 : LaneIdx).val)) 0#32) ∧
        statusAfter (step { State.reset with host := [.wr 11#6 0#32] }) = some 0x00008000#32) := by
  unfold resets
  decide

/-- A step that changes KEY, one that changes SKHI and SKLO (CLEAR's, of a SUBKEY's result), one that changes DATA, and
one that changes an enable. -/
theorem test_witness_KeyAndSubkeyHaveOnlyTheirWriters :
    (∃ t, step { State.reset with host := [.wr 4#6 1#32] } = .next t ∧ t.key ≠ State.reset.key) ∧
      (∃ t, step { running 0x00000007#32 0 [] with skhi := 0x000518A2#32, sklo := 0x05060704#32 } = .next t ∧
        t.skhi ≠ 0x000518A2#32 ∧ t.sklo ≠ 0x05060704#32) ∧
      (∃ t, step { State.reset with host := [.wr 8#6 1#32] } = .next t ∧ t.data ≠ State.reset.data) ∧
      (∃ t, step { State.reset with host := [.wr 1#6 1#32] } = .next t ∧ t.ieDone ≠ State.reset.ieDone) :=
  ⟨⟨_, rfl, by decide⟩, ⟨_, rfl, by decide, by decide⟩, ⟨_, rfl, by decide⟩, _, rfl, by decide⟩

theorem test_witness_OneStepReadsNoKey :
    goesOn (step { loaded 0xF#4 0xF#4 with host := [.rd 4#6 "k"] }) = true := by decide

/-- Either side of the window: its first address and the one past its last are those of the two clauses, at every base. -/
theorem test_witness_BridgeFindsEveryRegister : ∃ a, Config.coreBase + 256 ≤ a := ⟨_, Nat.le_refl _⟩

theorem test_witness_ResetStepClearsCore : resets { loaded 0xF#4 0xF#4 with rst := true } ∧
    resets (running 0x00000001#32 2 [.setRst true]) := by
  unfold resets
  decide

theorem test_witness_TransactionsDuringResetDoNothing : ({ State.reset with rst := true } : State).rst = true := by decide

/-- The reset state meets the invariant, and a step from it goes on. -/
theorem test_witness_StepKeepsInvariant : Inv State.reset ∧ goesOn (step State.reset) = true :=
  ⟨⟨by decide, by decide, fun _ h => (nomatch h), by decide, by decide, by decide⟩, by decide⟩

/-- rot 0, 8, 16 and 24 (V1 rows 5, 8, 7 and 6), and key bytes 0. -/
theorem test_witness_F1RotatesWholeBytes :
    rotOf (subkeyOf tc1 keyK 4) = 0 ∧ rotOf (subkeyOf tc1 keyK 7) = 8 ∧ rotOf (subkeyOf tc1 keyK 6) = 16 ∧
      rotOf (subkeyOf tc1 keyK 5) = 24 ∧ (subkeyOf tc1 zeroBlock 0)[1] = 0#8 ∧ (subkeyOf tc1 zeroBlock 0)[2] = 0#8 ∧
      (subkeyOf tc1 zeroBlock 0)[3] = 0#8 ∧ (subkeyOf tc1 zeroBlock 0)[4] = 0#8 := by decide +kernel

theorem test_witness_F2KeepsConstantLanes : ∀ i, tc0.pInner i = i := by decide

theorem test_witness_PadEndsInItsLength : (0 : Nat) < 16 - ([] : List Byte).length % 16 ∧
    15 < 16 - (List.replicate 16 0#8 : List Byte).length % 16 := by decide

/-- A pad count past the length, and one that is not. -/
theorem test_witness_UnpadTrustsTheCount : ([5#8, 5#8] : List Byte).length + 1 < (5#8 : Byte).toNat ∧
    ¬ ([] : List Byte).length + 1 < (1#8 : Byte).toNat := by decide

/-- Two inputs that agree in their first block and differ in their second; decrypt inputs of 16, 0 and 17 bytes. -/
theorem test_witness_BlocksAreIndependent :
    (blocksOf (pad (List.replicate 16 1#8 ++ [2#8])))[0]? = (blocksOf (pad (List.replicate 16 1#8 ++ [3#8])))[0]? ∧
      (blocksOf (List.replicate 32 1#8))[0]? = (blocksOf (List.replicate 16 1#8 ++ List.replicate 16 2#8))[0]? ∧
      (List.replicate 16 0#8 : List Byte).length ≠ 0 ∧ (List.replicate 16 0#8 : List Byte).length % 16 = 0 ∧
      ([] : List Byte).length = 0 ∧ (List.replicate 17 0#8 : List Byte).length % 16 ≠ 0 := by decide +kernel

/-- A key of 15 and of 17 bytes; a key of 16 with an input of 0 and of 17 bytes. -/
theorem test_witness_DriverRefusesBadLengths :
    (List.replicate 15 0#8 : List Byte).length ≠ 16 ∧ (List.replicate 17 0#8 : List Byte).length ≠ 16 ∧
      (List.replicate 16 0#8 : List Byte).length = 16 ∧ ([] : List Byte).length = 0 ∧
      (List.replicate 17 0#8 : List Byte).length % 16 ≠ 0 := by decide

/-- TC0's tables build. -/
theorem test_witness_BuildAcceptsExactlyWellFormedTables : ∃ c, buildCfg tc0Tables = .ok c :=
  test_well_formed_tables_build tc0Tables test_tc0_is_well_formed

/-- The state of P1 before its LDBLK, with the driver's operations for B0; a state with a stale error, an earlier call's
failure and its readings, with a whole call. -/
theorem test_witness_DriverTransformsOneBlock :
    let s := { loaded 0xF#4 0x0#4 with host := driveBlock .encrypt blockB0 ++ [] }
    s.rst = false ∧ s.phase = .idle ∧ s.err = 0#4 ∧ s.keyMask = 0b1111#4 ∧
      s.host = driveBlock .encrypt blockB0 ++ [] ∧
    let u := { State.reset with
      err := 2#4
      failure := some (.deviceError 2#4)
      reads := [{ name := "y0", idx := 8#6, value := 7#32 }]
      host := driveCall [0x41#8] keyK.toList .encrypt true ++ [] }
    u.rst = false ∧ u.phase = .idle ∧ u.host = driveCall [0x41#8] keyK.toList .encrypt true ++ [] :=
  ⟨rfl, rfl, rfl, rfl, rfl, rfl, rfl, rfl⟩

/-- Operands at the ends of their ranges, inside and outside. -/
theorem test_witness_AssemblerGivesTableWords :
    (assembleCmd (.encr 1)).map encode = some 0x00000003#32 ∧ (assembleCmd (.encr 16)).map encode = some 0x000000F3#32 ∧
      assembleCmd (.encr 0) = none ∧ assembleCmd (.encr 17) = none ∧
      (assembleCmd (.lanef 4 3 16)).map encode = some 0x000033F6#32 ∧ assembleCmd (.lanef 5 0 1) = none ∧
      assembleCmd (.lanefi 1 4 1) = none := by decide

end Sys2Proof.Tests
end

section
/-! The validity masks (10_state.md R31): what each step does to KEYMASK and DATAMASK, said once, and from it which events
write them. -/

namespace Sys2Proof.Machine

/-! ## Indices and moves -/

theorem keyIndex_injective {j k : LaneIdx} (h : keyIndex j = keyIndex k) : j = k := by
  revert j k; decide

theorem dataIndex_injective {j k : LaneIdx} (h : dataIndex j = dataIndex k) : j = k := by
  revert j k; decide

theorem keyIndex_ne_dataIndex (j k : LaneIdx) : keyIndex j ≠ dataIndex k := by
  revert j k; decide

/-- CMD is no operand register (10_state.md R25). -/
theorem cmdIndex_ne (k : LaneIdx) : 3#6 ≠ keyIndex k ∧ 3#6 ≠ dataIndex k := by revert k; decide

/-- Out of reset, an operation of the host other than asserting RST does not reset. -/
theorem not_resets_of_hostMoves {s : State} {op : HostOp} (hr : s.rst = false) (hop : hostMoves s = some op)
    (hne : op ≠ .setRst true) : ¬ resets s := by
  simp [resets, hr, hop, hne]

/-- Out of reset, a step in which the host does not move does not reset. -/
theorem not_resets_of_hostMoves_none {s : State} (hr : s.rst = false) (hop : hostMoves s = none) : ¬ resets s := by
  simp [resets, hr, hop]

theorem hostMoves_eq_none_of_host_nil {s : State} (hh : s.host = []) : hostMoves s = none := by
  unfold hostMoves
  split <;> simp [hh]

/-! ## The masks after a completion -/

/-- KEYMASK after a completion: only CLEAR writes it (10_state.md R31). -/
theorem effectOf_keyMask (c : Cfg) (i : Instr) (s : State) :
    (effectOf c i s).keyMask = if i = .clear then 0#4 else s.keyMask := by
  cases i <;> simp [effectOf]

/-- DATAMASK after a completion: only ENC, DEC and CLEAR write it (10_state.md R31). -/
theorem effectOf_dataMask (c : Cfg) (i : Instr) (s : State) :
    (effectOf c i s).dataMask = if i = .clear ∨ i = .enc ∨ i = .dec then 0#4 else s.dataMask := by
  cases i <;> simp [effectOf]

/-! ## What a step does to the masks -/

/-- Every way a step can act on the two masks, with the event that does it (10_state.md R31). -/
inductive MaskMove (s t : State) : Prop
  /-- Reset is entered or held. -/
  | reset (hreset : resets s) (hkey : t.keyMask = 0#4) (hdata : t.dataMask = 0#4)
  /-- A command completes. -/
  | completion (hreset : ¬ resets s) (i : Instr) (hphase : s.phase ≠ .idle) (hcomp : completes s = some i)
      (hkey : t.keyMask = (effectOf Config.cfg i s).keyMask) (hdata : t.dataMask = (effectOf Config.cfg i s).dataMask)
  /-- A KEY write is performed. -/
  | keyWrite (hreset : ¬ resets s) (k : LaneIdx) (w : Word) (hphase : s.phase = .idle) (hcomp : completes s = none)
      (hop : hostMoves s = some (.wr (keyIndex k) w)) (hkey : t.keyMask = setMaskBit s.keyMask k)
      (hdata : t.dataMask = s.dataMask)
  /-- A DATA write is performed. -/
  | dataWrite (hreset : ¬ resets s) (k : LaneIdx) (w : Word) (hphase : s.phase = .idle) (hcomp : completes s = none)
      (hop : hostMoves s = some (.wr (dataIndex k) w)) (hkey : t.keyMask = s.keyMask)
      (hdata : t.dataMask = setMaskBit s.dataMask k)
  /-- None of these events. -/
  | keep (hreset : ¬ resets s) (hcomp : completes s = none)
      (hop : s.phase = .idle → ∀ k w, hostMoves s ≠ some (.wr (keyIndex k) w) ∧ hostMoves s ≠ some (.wr (dataIndex k) w))
      (hkey : t.keyMask = s.keyMask) (hdata : t.dataMask = s.dataMask)

/-- While RST is asserted no operation of the host sets a mask bit (70_reset_and_hazards.md R263). -/
theorem HostMove.masks_zero_of_rst {s t : State} {op : HostOp} (hm : HostMove s op t) (hr : s.rst = true)
    (hkey : s.keyMask = 0#4) (hdata : s.dataMask = 0#4) : t.keyMask = 0#4 ∧ t.dataMask = 0#4 := by
  cases hm with
  | quiet _ _ hcore => exact ⟨hcore.keyMask.trans hkey, hcore.dataMask.trans hdata⟩
  | rst level => cases level <;> simp [driveRst, State.reset, hkey, hdata]
  | error _ _ _ hlow | ctrl _ hlow | status _ hlow | key _ _ hlow | data _ _ hlow | accepted _ _ hlow =>
    exact absurd hr (by simp [hlow])

/-- The host's move of an idle CORE, or of a busy one with latency left, as a move of the masks. -/
theorem HostMove.maskMove {s t : State} {op : HostOp} {lat : Nat} {rest : List HostOp}
    (hm : HostMove { s with lat := lat, host := rest } op t) (hr : s.rst = false) (hcomp : completes s = none)
    (hop : hostMoves s = some op) : MaskMove s t := by
  have keepWrite : ∀ {idx w}, op = .wr idx w → (s.phase = .idle → ∀ k, idx ≠ keyIndex k ∧ idx ≠ dataIndex k) →
      t.keyMask = s.keyMask → t.dataMask = s.dataMask → MaskMove s t := by
    rintro idx w rfl hidx hkey hdata
    refine .keep (not_resets_of_hostMoves hr hop (by simp)) hcomp (fun hidle k v => ?_) hkey hdata
    simp [hop, hidx hidle k]
  cases hm with
  | quiet _ _ hcore hwr hrst =>
    refine .keep (not_resets_of_hostMoves hr hop (hrst true)) hcomp (fun _ k w => ?_) hcore.keyMask hcore.dataMask
    have hnot : ∀ idx, op ≠ .wr idx w := fun idx he => absurd (hwr idx w he) (by simp [hr])
    simp [hop, hnot]
  | error idx w code _ _ _ hbusy =>
    exact keepWrite rfl
      (fun hidle k => ⟨fun he => hbusy k (.inl he) hidle, fun he => hbusy k (.inr he) hidle⟩) (by simp) (by simp)
  | ctrl w => exact keepWrite rfl (fun _ k => ⟨(keyIndex_ne k).1.symm, (dataIndex_ne k).1.symm⟩) rfl rfl
  | status w => exact keepWrite rfl (fun _ k => ⟨(keyIndex_ne k).2.symm, (dataIndex_ne k).2.symm⟩) rfl rfl
  | accepted w i => exact keepWrite rfl (fun _ k => cmdIndex_ne k) rfl rfl
  | key k w _ hidle => exact .keyWrite (not_resets_of_hostMoves hr hop (by simp)) k w hidle hcomp hop rfl rfl
  | data k w _ hidle => exact .dataWrite (not_resets_of_hostMoves hr hop (by simp)) k w hidle hcomp hop rfl rfl
  | rst level =>
    cases level with
    | true => exact .reset (.inr hop) rfl rfl
    | false => exact .keep (not_resets_of_hostMoves hr hop (by simp)) hcomp (by simp [hop]) rfl rfl

/-- Every step that goes on is one of the moves of the masks. -/
theorem step_maskMove {s t : State} (h : step s = .next t) : MaskMove s t := by
  cases step_move s t h with
  | resetWait hr => exact .reset (.inl hr) rfl rfl
  | resetHost _ op rest hr _ hm =>
    obtain ⟨hkey, hdata⟩ := hm.masks_zero_of_rst (by simpa using hr) rfl rfl
    exact .reset (.inl hr) hkey hdata
  | wait lat hr hh hcomp =>
    have hnone := hostMoves_eq_none_of_host_nil hh
    exact .keep (not_resets_of_hostMoves_none hr hnone) hcomp (by simp [hnone]) rfl rfl
  | host _ lat op rest hr _ hcomp hop _ hm => exact hm.maskMove hr hcomp hop
  | completion w i hr hp _ _ hcomp hop =>
    exact .completion (not_resets_of_hostMoves_none hr hop) i (by simp [hp]) hcomp (by simp) (by simp)

/-! ## Reading the moves: what each event leaves, and which event it was -/

namespace MaskMove

variable {s t : State}

theorem masks_of_resets (h : MaskMove s t) (hreset : resets s) : t.keyMask = 0#4 ∧ t.dataMask = 0#4 := by
  cases h with
  | reset _ hkey hdata => exact ⟨hkey, hdata⟩
  | completion hn | keyWrite hn | dataWrite hn | keep hn => exact absurd hreset hn

theorem masks_of_completes {i : Instr} (h : MaskMove s t) (hreset : ¬ resets s) (hi : completes s = some i) :
    t.keyMask = (effectOf Config.cfg i s).keyMask ∧ t.dataMask = (effectOf Config.cfg i s).dataMask := by
  cases h with
  | completion _ j _ hj hkey hdata =>
    obtain rfl : j = i := by simpa [hj] using hi
    exact ⟨hkey, hdata⟩
  | reset hy => exact absurd hy hreset
  | keyWrite _ _ _ _ hnone | dataWrite _ _ _ _ hnone | keep _ hnone => simp [hnone] at hi

theorem masks_of_keyWrite {k : LaneIdx} {w : Word} (h : MaskMove s t) (hreset : ¬ resets s) (hidle : s.phase = .idle)
    (hw : hostMoves s = some (.wr (keyIndex k) w)) : t.keyMask = setMaskBit s.keyMask k ∧ t.dataMask = s.dataMask := by
  cases h with
  | keyWrite _ j v _ _ hop hkey hdata =>
    have hidx : keyIndex j = keyIndex k ∧ v = w := by simpa [hop] using hw
    obtain rfl := keyIndex_injective hidx.1
    exact ⟨hkey, hdata⟩
  | reset hy => exact absurd hy hreset
  | completion _ _ hbusy => exact absurd hidle hbusy
  | dataWrite _ j v _ _ hop =>
    have hidx : dataIndex j = keyIndex k ∧ v = w := by simpa [hop] using hw
    exact absurd hidx.1.symm (keyIndex_ne_dataIndex k j)
  | keep _ _ hop => exact absurd hw (hop hidle k w).1

theorem masks_of_dataWrite {k : LaneIdx} {w : Word} (h : MaskMove s t) (hreset : ¬ resets s) (hidle : s.phase = .idle)
    (hw : hostMoves s = some (.wr (dataIndex k) w)) : t.keyMask = s.keyMask ∧ t.dataMask = setMaskBit s.dataMask k := by
  cases h with
  | dataWrite _ j v _ _ hop hkey hdata =>
    have hidx : dataIndex j = dataIndex k ∧ v = w := by simpa [hop] using hw
    obtain rfl := dataIndex_injective hidx.1
    exact ⟨hkey, hdata⟩
  | reset hy => exact absurd hy hreset
  | completion _ _ hbusy => exact absurd hidle hbusy
  | keyWrite _ j v _ _ hop =>
    have hidx : keyIndex j = dataIndex k ∧ v = w := by simpa [hop] using hw
    exact absurd hidx.1 (keyIndex_ne_dataIndex j k)
  | keep _ _ hop => exact absurd hw (hop hidle k w).2

/-- A step that changes KEYMASK is a reset, a CLEAR completion or an idle KEY write. -/
theorem writer_of_keyMask_ne (h : MaskMove s t) (hne : t.keyMask ≠ s.keyMask) :
    resets s ∨ completes s = some .clear ∨
      (s.phase = .idle ∧ ∃ (k : LaneIdx) (w : Word), hostMoves s = some (.wr (keyIndex k) w)) := by
  cases h with
  | reset hy => exact .inl hy
  | completion _ i _ hi hkey =>
    have hclear : i = .clear := by
      by_contra hother
      exact hne (by rw [hkey, effectOf_keyMask, if_neg hother])
    exact .inr (.inl (hclear ▸ hi))
  | keyWrite _ k w hidle _ hop => exact .inr (.inr ⟨hidle, k, w, hop⟩)
  | dataWrite _ _ _ _ _ _ hkey | keep _ _ _ hkey => exact absurd hkey hne

/-- A step that changes DATAMASK is a reset, a CLEAR, ENC or DEC completion or an idle DATA write. -/
theorem writer_of_dataMask_ne (h : MaskMove s t) (hne : t.dataMask ≠ s.dataMask) :
    resets s ∨ completes s = some .clear ∨ completes s = some .enc ∨ completes s = some .dec ∨
      (s.phase = .idle ∧ ∃ (k : LaneIdx) (w : Word), hostMoves s = some (.wr (dataIndex k) w)) := by
  cases h with
  | reset hy => exact .inl hy
  | completion _ i _ hi _ hdata =>
    have hwriter : i = .clear ∨ i = .enc ∨ i = .dec := by
      by_contra hother
      exact hne (by rw [hdata, effectOf_dataMask, if_neg hother])
    rcases hwriter with rfl | rfl | rfl <;> simp [hi]
  | dataWrite _ k w hidle _ hop => exact .inr (.inr (.inr (.inr ⟨hidle, k, w, hop⟩)))
  | keyWrite _ _ _ _ _ _ _ hdata | keep _ _ _ _ hdata => exact absurd hdata hne

end MaskMove

/-- Settles O31: a step is one of the moves of the masks, and each clause reads them for one event. -/
theorem masksHaveOnlyTheirWriters : Obligations.MasksHaveOnlyTheirWriters := by
  intro s t h
  have hm := step_maskMove h
  refine ⟨hm.masks_of_resets, fun hn hclear => ?_, fun hn hcipher => ?_,
    fun k w hn hidle => ⟨hm.masks_of_keyWrite hn hidle, hm.masks_of_dataWrite hn hidle⟩,
    hm.writer_of_keyMask_ne, hm.writer_of_dataMask_ne⟩
  · simpa [effectOf_keyMask, effectOf_dataMask] using hm.masks_of_completes hn hclear
  · rcases hcipher with henc | hdec
    · simpa [effectOf_keyMask, effectOf_dataMask] using hm.masks_of_completes hn henc
    · simpa [effectOf_keyMask, effectOf_dataMask] using hm.masks_of_completes hn hdec

end Sys2Proof.Machine
end

section
/-! The read views and write actions of STATUS, CTRL and KEY (10_state.md R28, R29, R30, R33): what the two transactions
are at each register, and the numbers and bits of the views. -/

namespace Sys2Proof.Machine

/-! ## The transactions at CTRL, STATUS and KEYk, out of reset -/

section

variable {s : State} (hr : s.rst = false)
include hr

theorem regRead_ctrl : regRead 1#6 s = (ctrlWord s, s) := by simp [regRead, hr, regOf]

theorem regRead_status : regRead 2#6 s = (statusWord s, s) := by simp [regRead, hr, regOf]

theorem regRead_keyIndex (k : LaneIdx) : regRead (keyIndex k) s = (0#32, s) := by
  simp [regRead, hr, (regOf_of_index k).1]

theorem regWrite_ctrl (w : Word) : regWrite 1#6 w s = .next (ctrlWrite w s) := by simp [regWrite, hr, regOf]

theorem regWrite_status (w : Word) : regWrite 2#6 w s = .next (acknowledge w s) := by simp [regWrite, hr, regOf]

theorem regWrite_keyIndex (k : LaneIdx) (w : Word) : regWrite (keyIndex k) w s = .next (writeKey k w s) := by
  simp [regWrite, hr, (regOf_of_index k).1]

end

theorem busyBit_of_idle {s : State} (hp : s.phase = .idle) : busyBit s = false := by simp [busyBit, hp]

theorem busyBit_of_busy {s : State} {c : Word} (hp : s.phase = .busy c) : busyBit s = true := by simp [busyBit, hp]

theorem writeKey_of_busy {s : State} {c : Word} (hp : s.phase = .busy c) (k : LaneIdx) (w : Word) :
    writeKey k w s = raiseError .busy s := by
  simp [writeKey, busyBit_of_busy hp]

theorem writeKey_of_idle {s : State} (hp : s.phase = .idle) (k : LaneIdx) (w : Word) :
    writeKey k w s = { s with key := setWord s.key k w, keyMask := setMaskBit s.keyMask k } := by
  simp [writeKey, busyBit_of_idle hp]

/-! ## The views of STATUS and CTRL -/

/-- A bit string put above another, as a number. -/
theorem toNat_append_eq_add {m n : Nat} (x : BitVec m) (y : BitVec n) :
    (x ++ y).toNat = 2 ^ n * x.toNat + y.toNat := by
  rw [BitVec.toNat_append, ← Nat.shiftLeft_add_eq_or_of_lt y.isLt, Nat.shiftLeft_eq, Nat.mul_comm]

/-- The STATUS view as the number its fields make (10_state.md R29). -/
theorem statusWord_toNat (s : State) : (statusWord s).toNat =
    (busyBit s).toNat + 2 * s.done.toNat + 8 * s.ovf.toNat + 16 * s.err.toNat + 256 * s.keyMask.toNat +
      4096 * s.dataMask.toNat := by
  simp only [statusWord, toNat_append_eq_add, BitVec.toNat_ofBool, BitVec.toNat_ofNat]
  omega

/-- The CTRL view of enables taken from a word is the word's two low bits (10_state.md R28). -/
theorem ctrlWord_ctrlWrite (w : Word) (s : State) : ctrlWord (ctrlWrite w s) = w &&& 3#32 := by
  apply BitVec.eq_of_toNat_eq
  simp only [ctrlWord, ctrlWrite, toNat_append_eq_add, BitVec.toNat_ofBool, BitVec.toNat_ofNat, BitVec.toNat_and,
    BitVec.getLsbD, Nat.toNat_testBit]
  rw [show 3 % 2 ^ 32 = 2 ^ 2 - 1 by rfl, Nat.and_two_pow_sub_one_eq_mod]
  omega

/-! ## The statements -/

/-- Settles O26: the STATUS view is the sum of its fields, and reading it moves nothing. -/
theorem statusViewHoldsItsFields : Obligations.StatusViewHoldsItsFields := by
  intro s hr
  rw [regRead_status hr]
  refine ⟨rfl, (statusWord_toNat s).trans ?_⟩
  cases hp : s.phase with
  | idle => simp [busyBit_of_idle hp]
  | busy c => simp [busyBit_of_busy hp]

/-- Settles O29: out of reset a KEY write is `writeKey`, refused while busy and `setWord` while idle. -/
theorem keyWriteReplacesWord : Obligations.KeyWriteReplacesWord := by
  intro s k w hr
  refine ⟨regRead_keyIndex hr k, fun c hp => ?_, fun hp => ⟨_, regWrite_keyIndex hr k w, ?_⟩⟩
  · exact (regWrite_keyIndex hr k w).trans (congrArg _ (writeKey_of_busy hp k w))
  · rw [writeKey_of_idle hp]
    exact ⟨rfl, laneOf_setLane_same s.key k (bytes4 w), fun i hi => by simp [setWord, hi]⟩

/-- Settles O27: the STATUS write is `acknowledge`, which clears by bits 1 and 2. -/
theorem statusWriteClears : Obligations.StatusWriteClears := by
  intro s w hr
  rw [regWrite_status hr, acknowledge]
  cases w.getLsbD 1 <;> cases w.getLsbD 2 <;> simp

/-- Settles O28: the CTRL write is `ctrlWrite`, whose enables the CTRL view shows again. -/
theorem ctrlWriteReadsBack : Obligations.CtrlWriteReadsBack := by
  refine ⟨rfl, rfl, fun s w hr => ⟨ctrlWrite w s, regWrite_ctrl hr w, rfl, ?_⟩⟩
  rw [regRead_ctrl (by simpa using hr), ctrlWord_ctrlWrite]

end Sys2Proof.Machine
end

section
/-! The read transaction at every index of the window (20_memory.md R64): what it is at the registers not met above, at the
unmapped indices, and at the registers whose read is exact only while CORE is idle. -/

namespace Sys2Proof.Machine

/-- The indices past SKLO name no register (10_state.md R25). -/
theorem regOf_eq_unmapped {idx : RegIndex} (h : 14 ≤ idx.toNat) : regOf idx = .unmapped := by
  revert idx; decide

/-! ## Reads out of reset -/

section

variable {s : State} (hr : s.rst = false)
include hr

theorem regRead_id : regRead 0#6 s = (idWord, s) := by simp [regRead, hr, regOf]

theorem regRead_cmd : regRead 3#6 s = (0#32, s) := by simp [regRead, hr, regOf]

theorem regRead_unmapped {idx : RegIndex} (h : 14 ≤ idx.toNat) : regRead idx s = (0#32, s) := by
  simp [regRead, hr, regOf_eq_unmapped h]

theorem regRead_dataIndex (k : LaneIdx) : regRead (dataIndex k) s = readIdle (wordOf s.data k) s := by
  simp [regRead, hr, (regOf_of_index k).2]

theorem regRead_skhi : regRead 12#6 s = readIdle s.skhi s := by simp [regRead, hr, regOf]

theorem regRead_sklo : regRead 13#6 s = readIdle s.sklo s := by simp [regRead, hr, regOf]

end

/-! ## Exact reads, and what any read leaves -/

theorem readIdle_of_idle {s : State} (hp : s.phase = .idle) (w : Word) : readIdle w s = (w, s) := by
  simp [readIdle, busyBit_of_idle hp]

/-- A read, of any index in any state, returns some word and moves the index of the free values at most (log 3). -/
theorem regRead_eq_with_draws (idx : RegIndex) (s : State) :
    ∃ (v : Word) (n : Nat), regRead idx s = (v, { s with draws := n }) := by
  rcases regRead_cases idx s with hkeep | hdraw
  · exact ⟨(regRead idx s).1, s.draws, Prod.ext rfl hkeep⟩
  · exact ⟨(regRead idx s).1, s.draws + 1, Prod.ext rfl hdraw⟩

/-- The CTRL view as the number its two enables make (10_state.md R28). -/
theorem ctrlWord_eq_ofNat (s : State) : ctrlWord s = BitVec.ofNat 32 (2 * s.ieErr.toNat + s.ieDone.toNat) := by
  rw [ctrlWord]
  cases s.ieErr <;> cases s.ieDone <;> rfl

/-- Settles O25: each clause is the read lemma of its register; the idle ones add that an idle read is exact, and the busy
one is what any read leaves. -/
theorem regReadReturnsTable : Obligations.RegReadReturnsTable := by
  intro s hr
  refine ⟨regRead_id hr, (regRead_ctrl hr).trans (congrArg (·, s) (ctrlWord_eq_ofNat s)), regRead_status hr,
    regRead_cmd hr, regRead_keyIndex hr, fun _ hidx => regRead_unmapped hr hidx, fun hidle => ⟨fun k => ?_, ?_, ?_⟩,
    fun _ _ idx _ _ => regRead_eq_with_draws idx s⟩
  · exact (regRead_dataIndex hr k).trans (readIdle_of_idle hidle _)
  · exact (regRead_skhi hr).trans (readIdle_of_idle hidle _)
  · exact (regRead_sklo hr).trans (readIdle_of_idle hidle _)

end Sys2Proof.Machine
end

section
/-! The ILLEGAL words (30_encoding.md R86): when each strictness check of the decoder refuses, as a bound on the word's
number, and what the CMD write does with a word that fails to decode. -/

namespace Sys2Proof

/-- OP is the word's low four bits, as a number (30_encoding.md R81). -/
theorem fieldOp_toNat (w : Word) : (fieldOp w).toNat = w.toNat % 16 := by
  simp [fieldOp, BitVec.extractLsb'_toNat]

/-! ## When each check refuses -/

section

variable (w : Word) (i : Instr)

/-- The check refuses when a reserved bit is 1 or the operation leaves a nonzero field unused, whatever the reason
given. -/
theorem strict_eq_error_iff (unused : Bool) : (∃ e, strict w unused i = .error e) ↔
    w.toNat / 2 ^ 11 % 2 = 1 ∨ w.toNat / 2 ^ 14 ≠ 0 ∨ unused = true := by
  have hreserved : (fieldReserved31 w ≠ 0#18 ∨ fieldReserved11 w ≠ 0#1) ↔
      w.toNat / 2 ^ 11 % 2 = 1 ∨ w.toNat / 2 ^ 14 ≠ 0 := by
    have hw := w.isLt
    simp only [fieldReserved31, fieldReserved11, ne_eq, ← BitVec.toNat_inj, BitVec.extractLsb'_toNat,
      Nat.shiftRight_eq_div_pow, BitVec.toNat_ofNat]
    omega
  rw [← or_assoc, ← hreserved, strict]
  split
  case isTrue h => simp [h]
  case isFalse h => cases unused <;> simp [h]

/-- A command without operands is refused exactly when a bit above OP is 1. -/
theorem strictPlain_eq_error_iff : (∃ e, strictPlain w i = .error e) ↔ w.toNat / 2 ^ 4 ≠ 0 := by
  rw [strictPlain, strict_eq_error_iff]
  simp only [fieldRidx, fieldFn, fieldInv, fieldLane, Bool.or_eq_true, decide_eq_true_eq, ne_eq, ← BitVec.toNat_inj,
    BitVec.extractLsb'_toNat, Nat.shiftRight_eq_div_pow, BitVec.toNat_ofNat]
  omega

/-- A command with a round alone is refused exactly when a bit above RIDX is 1. -/
theorem strictRound_eq_error_iff : (∃ e, strictRound w i = .error e) ↔ w.toNat / 2 ^ 8 ≠ 0 := by
  rw [strictRound, strict_eq_error_iff]
  simp only [fieldFn, fieldInv, fieldLane, Bool.or_eq_true, decide_eq_true_eq, ne_eq, ← BitVec.toNat_inj,
    BitVec.extractLsb'_toNat, Nat.shiftRight_eq_div_pow, BitVec.toNat_ofNat]
  omega

end

/-- The words that fail to decode: for each OP, those its check refuses (30_encoding.md R86). -/
theorem decode_eq_error_iff (w : Word) : (∃ e, decode w = .error e) ↔
    8 ≤ w.toNat % 16 ∨ w.toNat / 2 ^ 11 % 2 = 1 ∨ w.toNat / 2 ^ 14 ≠ 0 ∨
      ((w.toNat % 16 ≤ 2 ∨ w.toNat % 16 = 7) ∧ w.toNat / 2 ^ 4 ≠ 0) ∨
      (3 ≤ w.toNat % 16 ∧ w.toNat % 16 ≤ 5 ∧ w.toNat / 2 ^ 8 ≠ 0) := by
  unfold decode
  rw [fieldOp_toNat]
  split
  case h_1 | h_2 | h_3 | h_8 => rw [strictPlain_eq_error_iff]; omega
  case h_4 | h_5 | h_6 => rw [strictRound_eq_error_iff]; omega
  case h_7 hop =>
    rw [← apply_ite (strict w false), strict_eq_error_iff]
    simp [hop]
  case h_9 =>
    have hreserved : 8 ≤ w.toNat % 16 := by
      simp only [imp_false] at *
      omega
    simp [hreserved]

end Sys2Proof

namespace Sys2Proof.Machine

/-! ## The CMD write -/

theorem regWrite_cmd {s : State} (hr : s.rst = false) (w : Word) : regWrite 3#6 w s = issueWord w s := by
  simp [regWrite, hr, regOf]

/-- An idle CORE answers an ILLEGAL word with ILLEGAL_CMD and nothing more (43_control_commands.md R190). -/
theorem issueWord_of_decode_error {s : State} {w : Word} {e : DecodeError} (hp : s.phase = .idle)
    (hd : decode w = .error e) : issueWord w s = .next (raiseError .illegalCmd s) := by
  simp [issueWord, busyBit_of_idle hp, hd]

/-- Settles O5: the decoder refuses by its per-OP checks, and the refused CMD write is `raiseError`, with code 1. -/
theorem illegalWordsAreRefused : Obligations.IllegalWordsAreRefused := by
  refine ⟨decode_eq_error_iff, fun s w e hr hp hd => ?_⟩
  rw [regWrite_cmd hr, issueWord_of_decode_error hp hd]
  rfl

end Sys2Proof.Machine
end

section
/-! The key schedule (40_key_schedule.md R101 to R103, R108): the bytes of a subkey, by its round's key group and
rotation, and the rotation amount as a product of two key bytes. -/

namespace Sys2Proof.Machine

/-! ## The five bytes -/

/-- Byte 0 of a subkey is the round constant, whatever the key. -/
theorem subkeyOf_getElem_zero (c : Cfg) (k : Block) (r : RoundIdx) : (subkeyOf c k r)[0] = c.rc r := rfl

/-- Bytes 1 to 4 of a subkey are the rotated key group. -/
theorem subkeyOf_getElem_one_add (c : Cfg) (k : Block) (r : RoundIdx) (i : Nat) (hi : i < 4) :
    (subkeyOf c k r)[1 + i] = (rotlBytes (keyRotation r) (laneOf k (keyGroup r)))[i] := by
  match i, hi with
  | 0, _ | 1, _ | 2, _ | 3, _ => rfl

/-- Settles O41: byte 1 + i is byte i of the rotated lane, and the rotation and the lane each move the index. -/
theorem subkeyBytesFollowGroupAndRotation : Obligations.SubkeyBytesFollowGroupAndRotation := by
  intro c k r
  refine ⟨subkeyOf_getElem_zero c k r, fun i => ?_⟩
  rw [subkeyOf_getElem_one_add c k r i.val i.isLt, rotlBytes_getElem, laneOf_getElem]
  rfl

/-! ## The rotation amount -/

/-- The last byte is the residue of a big-endian number modulo 32, because 32 divides 256. -/
theorem be_concat_mod_32 (bs : List Byte) (b : Byte) : be (bs ++ [b]) % 32 = b.toNat % 32 := by
  rw [be_concat]
  omega

/-- Only the low bytes of the two factors reach the rotation amount. -/
theorem rotOf_eq_mul_mod (sk : Subkey) : rotOf sk = sk[2].toNat * sk[4].toNat % 32 := by
  calc rotOf sk
      = be ([sk[0], sk[1]] ++ [sk[2]]) % 32 * (be ([sk[3]] ++ [sk[4]]) % 32) % 32 := Nat.mul_mod ..
    _ = sk[2].toNat % 32 * (sk[4].toNat % 32) % 32 := by rw [be_concat_mod_32, be_concat_mod_32]
    _ = sk[2].toNat * sk[4].toNat % 32 := (Nat.mul_mod ..).symm

/-- The rotation amount of the round with key group g and rotation n (40_key_schedule.md R108). -/
theorem rotOf_subkeyOf (c : Cfg) (k : Block) {r : RoundIdx} {g n : Nat} (hg : g < 4) (hr : r.val = 4 * n + g) :
    rotOf (subkeyOf c k r) =
      (k[4 * g + (1 + n) % 4]'(by omega)).toNat * (k[4 * g + (3 + n) % 4]'(by omega)).toNat % 32 := by
  have hgroup : (r.number - 1) % 4 = g := by simp only [RoundIdx.number]; omega
  have hrotation : (r.number - 1) / 4 = n := by simp only [RoundIdx.number]; omega
  obtain ⟨-, hbytes⟩ := subkeyBytesFollowGroupAndRotation c k r
  have hsecond := hbytes 1
  have hfourth := hbytes 3
  simp only [hgroup, hrotation] at hsecond hfourth
  rw [rotOf_eq_mul_mod]
  exact congrArg₂ (fun a b : Byte => a.toNat * b.toNat % 32) hsecond hfourth

/-- Rotating the key group two bytes further exchanges the two factors. -/
theorem rotOf_subkeyOf_add_eight (c : Cfg) (k : Block) {r q : RoundIdx} (hq : q.val = r.val + 8) :
    rotOf (subkeyOf c k q) = rotOf (subkeyOf c k r) := by
  have hg : r.val % 4 < 4 := Nat.mod_lt _ (by decide)
  have hsecond : (1 + (r.val / 4 + 2)) % 4 = (3 + r.val / 4) % 4 := by omega
  have hfourth : (3 + (r.val / 4 + 2)) % 4 = (1 + r.val / 4) % 4 := by omega
  rw [rotOf_subkeyOf c k (n := r.val / 4 + 2) hg (by omega), rotOf_subkeyOf c k (n := r.val / 4) hg (by omega)]
  simp only [hsecond, hfourth]
  rw [Nat.mul_comm]

/-- Settles O42: the four products are `rotOf_subkeyOf` at rotations 0 to 3. -/
theorem rotationAmountIgnoresConstant : Obligations.RotationAmountIgnoresConstant := by
  refine ⟨rotOf_eq_mul_mod, fun c k g => ⟨?_, ?_, ?_, ?_, ?_⟩⟩
  · exact rotOf_subkeyOf c k (n := 0) g.isLt (by simp)
  · exact rotOf_subkeyOf c k (n := 1) g.isLt (by simp)
  · exact rotOf_subkeyOf c k (n := 2) g.isLt (by simp)
  · exact rotOf_subkeyOf c k (n := 3) g.isLt (by simp)
  · exact fun r => (rotOf_subkeyOf_add_eight c k rfl).symm

end Sys2Proof.Machine
end

section
/-! The round functions (41_round_functions.md R121 to R133): each layer, what it computes and its inverse, and from the
layers F1 to F4. -/

namespace Sys2Proof.Machine

/-! ## Lanes by their bytes and their bits -/

theorem lane_eq_mk (l : Lane) : #v[l[0], l[1], l[2], l[3]] = l := by
  apply Vector.ext
  intro i hi
  match i, hi with
  | 0, _ | 1, _ | 2, _ | 3, _ => rfl

/-- Bit j of the lane word is bit j mod 8 of byte 3 - j/8 (20_memory.md R62). -/
theorem be32_getLsbD_eq_byte (l : Lane) {j : Nat} (hj : j < 32) :
    (be32 l).getLsbD j = (l[3 - j / 8]'(by omega)).getLsbD (j % 8) := by
  rw [be32_getLsbD]
  split_ifs
  · simp only [show 3 - j / 8 = 3 by omega, show j % 8 = j by omega]
  · simp only [show 3 - j / 8 = 2 by omega, show j % 8 = j - 8 by omega]
  · simp only [show 3 - j / 8 = 1 by omega, show j % 8 = j - 16 by omega]
  · simp only [show 3 - j / 8 = 0 by omega, show j % 8 = j - 24 by omega]

theorem be32_injective {l m : Lane} (h : be32 l = be32 m) : l = m := by
  rw [← bytes4_be32 l, h, bytes4_be32]

/-! ## The substitution layer -/

theorem subInv_sub (c : Cfg) (l : Lane) : subInv c (sub c l) = l := by
  simpa [sub, subInv] using lane_eq_mk l

theorem sub_subInv (c : Cfg) (l : Lane) : sub c (subInv c l) = l := by
  simpa [sub, subInv] using lane_eq_mk l

/-! ## The XOR with the subkey -/

theorem xorKey_xorKey (l : Lane) (sk : Subkey) : xorKey (xorKey l sk) sk = l := by
  simpa [xorKey, BitVec.xor_assoc] using lane_eq_mk l

/-- A lane equal to the subkey bytes vanishes. -/
theorem xorKey_self (sk : Subkey) : xorKey #v[sk[1], sk[2], sk[3], sk[4]] sk = Vector.replicate 4 0x00#8 := by
  simpa [xorKey] using lane_eq_mk (Vector.replicate 4 0x00#8)

/-- Zero subkey bytes leave the lane. -/
theorem xorKey_of_zero (l : Lane) {sk : Subkey} (h1 : sk[1] = 0#8) (h2 : sk[2] = 0#8) (h3 : sk[3] = 0#8)
    (h4 : sk[4] = 0#8) : xorKey l sk = l := by
  simpa [xorKey, h1, h2, h3, h4] using lane_eq_mk l

/-! ## The rotation -/

/-- Bit j of the word rotated right by n is bit (j + n) mod 32 of the word (00_scope.md R15). -/
theorem rotr32_getLsbD (w : Word) (n : Nat) {j : Nat} (hj : j < 32) :
    (rotr32 w n).getLsbD j = w.getLsbD ((j + n) % 32) := by
  rw [rotr32_eq_rotateRight, BitVec.getLsbD_rotateRight]
  by_cases hlow : j < 32 - n % 32 % 32
  · simp only [hlow, decide_true, cond_true]
    congr 1; omega
  · simp only [hlow, hj, decide_true, decide_false, cond_false, Bool.true_and]
    congr 1; omega

theorem rotr32_rotr32 (w : Word) (m n : Nat) : rotr32 (rotr32 w m) n = rotr32 w (m + n) := by
  apply BitVec.eq_of_getLsbD_eq
  intro j hj
  rw [rotr32_getLsbD _ _ hj, rotr32_getLsbD _ _ (Nat.mod_lt _ (by decide)), rotr32_getLsbD _ _ hj]
  congr 1; omega

theorem rotr32_of_mod_eq_zero (w : Word) {n : Nat} (h : n % 32 = 0) : rotr32 w n = w := by
  simp [rotr32, h]

theorem rotl32_rotr32 (w : Word) (n : Nat) : rotl32 (rotr32 w n) n = w := by
  rw [rotl32, rotr32_rotr32, rotr32_of_mod_eq_zero w (by omega)]

theorem rotr32_rotl32 (w : Word) (n : Nat) : rotr32 (rotl32 w n) n = w := by
  rw [rotl32, rotr32_rotr32, rotr32_of_mod_eq_zero w (by omega)]

/-- Rotating the lane word by 8k bits rotates the lane by k bytes. -/
theorem rotr32_be32_eight_mul (l : Lane) (k : Nat) : rotr32 (be32 l) (8 * k) = be32 (rotrBytes k l) := by
  apply BitVec.eq_of_getLsbD_eq
  intro j hj
  have hbyte : 3 - (j + 8 * k) % 32 / 8 = (3 - j / 8 + (4 - k % 4)) % 4 := by omega
  have hbit : (j + 8 * k) % 32 % 8 = j % 8 := by omega
  rw [rotr32_getLsbD _ _ hj, be32_getLsbD_eq_byte l (Nat.mod_lt _ (by decide)), be32_getLsbD_eq_byte _ hj]
  simp only [rotrBytes, rotlBytes_getElem, hbyte, hbit]

/-! ## The permutation layers -/

/-- A lane whose word takes, at each bit position from the most significant one, the bit that p points to. -/
def gatherBits (p : Equiv.Perm (Fin 32)) (l : Lane) : Lane :=
  bytes4 (BitVec.ofFnBE fun i => (be32 l).getMsbD (p i).val)

/-- A block that takes, at each position, the byte that p points to. -/
def gatherBytes (p : Equiv.Perm (Fin 16)) (b : Block) : Block := Vector.ofFn fun i => b[p i]

/-- PIN gathers by its table, PIN_inv by the inverse of the table (41_round_functions.md R122). -/
theorem pin_eq_gatherBits (c : Cfg) : pin c = gatherBits c.pInner := rfl

theorem pinInv_eq_gatherBits (c : Cfg) : pinInv c = gatherBits c.pInner.symm := rfl

/-- POUT gathers by its table, POUT_inv by the inverse of the table (41_round_functions.md R123). -/
theorem pout_eq_gatherBytes (c : Cfg) : pout c = gatherBytes c.pOuter := rfl

theorem poutInv_eq_gatherBytes (c : Cfg) : poutInv c = gatherBytes c.pOuter.symm := rfl

theorem be32_gatherBits_getMsbD (p : Equiv.Perm (Fin 32)) (l : Lane) (i : Fin 32) :
    (be32 (gatherBits p l)).getMsbD i.val = (be32 l).getMsbD (p i).val := by
  rw [gatherBits, be32_bytes4, BitVec.getMsbD_ofFnBE, dif_pos i.isLt]

theorem lane_ext_getMsbD {l m : Lane} (h : ∀ i : Fin 32, (be32 l).getMsbD i.val = (be32 m).getMsbD i.val) : l = m :=
  be32_injective (BitVec.eq_of_getMsbD_eq fun i hi => h ⟨i, hi⟩)

/-- Gathering by the inverse table undoes gathering. -/
theorem gatherBits_symm_gatherBits (p : Equiv.Perm (Fin 32)) (l : Lane) : gatherBits p.symm (gatherBits p l) = l := by
  apply lane_ext_getMsbD
  intro i
  rw [be32_gatherBits_getMsbD, be32_gatherBits_getMsbD, p.apply_symm_apply]

theorem gatherBytes_symm_gatherBytes (p : Equiv.Perm (Fin 16)) (b : Block) :
    gatherBytes p.symm (gatherBytes p b) = b := by
  apply Vector.ext
  intro i hi
  simp [gatherBytes]

/-- A lane is kept when every bit equals the bit that its position takes. -/
theorem gatherBits_eq_self {p : Equiv.Perm (Fin 32)} {l : Lane}
    (h : ∀ i : Fin 32, (be32 l).getMsbD (p i).val = (be32 l).getMsbD i.val) : gatherBits p l = l := by
  apply lane_ext_getMsbD
  intro i
  rw [be32_gatherBits_getMsbD, h]

theorem pinInv_pin (c : Cfg) (l : Lane) : pinInv c (pin c l) = l := by
  rw [pin_eq_gatherBits, pinInv_eq_gatherBits, gatherBits_symm_gatherBits]

theorem pin_pinInv (c : Cfg) (l : Lane) : pin c (pinInv c l) = l := by
  rw [pin_eq_gatherBits, pinInv_eq_gatherBits]
  exact gatherBits_symm_gatherBits c.pInner.symm l

theorem poutInv_pout (c : Cfg) (b : Block) : poutInv c (pout c b) = b := by
  rw [pout_eq_gatherBytes, poutInv_eq_gatherBytes, gatherBytes_symm_gatherBytes]

theorem pout_poutInv (c : Cfg) (b : Block) : pout c (poutInv c b) = b := by
  rw [pout_eq_gatherBytes, poutInv_eq_gatherBytes]
  exact gatherBytes_symm_gatherBytes c.pOuter.symm b

/-! ## F1 to F4 -/

theorem invf_fwd (c : Cfg) (fn : LaneFn) (l : Lane) (sk : Subkey) : invf c fn (fwd c fn l sk) sk = l := by
  cases fn with
  | f1 => simp [fwd, invf, f1, f1Inv, rotl32_rotr32, subInv_sub]
  | f2 => exact pinInv_pin c l
  | f3 => simp [fwd, invf, f3, f3Inv, subInv_sub, xorKey_xorKey]
  | f4 => exact subInv_sub c l

theorem fwd_invf (c : Cfg) (fn : LaneFn) (l : Lane) (sk : Subkey) : fwd c fn (invf c fn l sk) sk = l := by
  cases fn with
  | f1 => simp [fwd, invf, f1, f1Inv, sub_subInv, rotr32_rotl32]
  | f2 => exact pin_pinInv c l
  | f3 => simp [fwd, invf, f3, f3Inv, xorKey_xorKey, sub_subInv]
  | f4 => exact sub_subInv c l

/-- Settles O43: each layer has its inverse, and F1 and F3 are two layers, undone in the opposite order. -/
theorem laneFunctionsAreInvertible : Obligations.LaneFunctionsAreInvertible := fun c =>
  ⟨fun fn l sk => ⟨invf_fwd c fn l sk, fwd_invf c fn l sk⟩, fun l => ⟨pinInv_pin c l, pin_pinInv c l⟩,
    fun b => ⟨poutInv_pout c b, pout_poutInv c b⟩⟩

theorem be32_f1 (c : Cfg) (l : Lane) (sk : Subkey) : be32 (f1 c l sk) = rotr32 (be32 (sub c l)) (rotOf sk) :=
  be32_bytes4 _

/-- Where the rotation amount is 8k, F1 rotates the substituted lane by k bytes. -/
theorem f1_of_rotOf_eq_eight_mul (c : Cfg) (l : Lane) {sk : Subkey} {k : Nat} (h : rotOf sk = 8 * k) :
    f1 c l sk = rotrBytes k (sub c l) := by
  apply be32_injective
  rw [be32_f1, h, rotr32_be32_eight_mul]

theorem f1_of_rotOf_eq_zero (c : Cfg) (l : Lane) {sk : Subkey} (h : rotOf sk = 0) : f1 c l sk = sub c l := by
  apply be32_injective
  rw [be32_f1, h, rotr32_of_mod_eq_zero _ rfl]

/-- Settles O45: F1 by the bits of the rotated word and by `f1_of_rotOf_eq_eight_mul`, F3 by `xorKey`'s lemmas. -/
theorem f1RotatesWholeBytes : Obligations.F1RotatesWholeBytes := by
  intro c l sk
  refine ⟨⟨rfl, rfl⟩, fun j => ?_, fun h => ⟨f1_of_rotOf_eq_zero c l h, f1_of_rotOf_eq_zero c l h⟩,
    f1_of_rotOf_eq_eight_mul c l (k := 1), f1_of_rotOf_eq_eight_mul c l (k := 2),
    f1_of_rotOf_eq_eight_mul c l (k := 3), rfl, congrArg (sub c) (xorKey_self sk),
    fun h1 h2 h3 h4 => congrArg (sub c) (xorKey_of_zero l h1 h2 h3 h4), rfl⟩
  rw [be32_f1, rotr32_getLsbD _ _ j.isLt]

/-- PIN keeps a lane whose bits are all equal, whatever P_INNER is. -/
theorem pin_eq_self_of_constant (c : Cfg) {l : Lane} {b : Bool} (h : ∀ i : Fin 32, (be32 l).getMsbD i.val = b) :
    pin c l = l :=
  pin_eq_gatherBits c ▸ gatherBits_eq_self fun i => (h (c.pInner i)).trans (h i).symm

/-- PIN by the identity table is the identity. -/
theorem pin_eq_self_of_pInner_id {c : Cfg} (h : ∀ i, c.pInner i = i) (l : Lane) : pin c l = l :=
  pin_eq_gatherBits c ▸ gatherBits_eq_self fun i => by rw [h i]

/-- Settles O46: a bit permutation cannot tell equal bits apart. -/
theorem f2KeepsConstantLanes : Obligations.F2KeepsConstantLanes := by
  intro c sk
  refine ⟨fun _ => rfl, ?_, ?_, pin_eq_self_of_pInner_id⟩
  · exact pin_eq_self_of_constant c (b := false) (by decide)
  · exact pin_eq_self_of_constant c (b := true) (by decide)

end Sys2Proof.Machine
end

section
/-! The block transforms (42_block_core.md R160 to R173): the layers lane by lane, the round and its inverse, and the
sixteen rounds as a fold over the state. -/

namespace Sys2Proof.Machine

/-! ## XRC -/

theorem xrc_getElem (b : Block) (x : Byte) (i : Nat) (hi : i < 16) : (xrc b x)[i] = b[i] ^^^ x := by
  simp [xrc]

theorem xrc_xrc (b : Block) (x : Byte) : xrc (xrc b x) x = b := by
  apply Vector.ext
  intro i hi
  rw [xrc_getElem, xrc_getElem, BitVec.xor_assoc, BitVec.xor_self, BitVec.xor_zero]

/-- Settles O48: byte by byte, as x ^ x is 0. -/
theorem roundConstantLayerIsInvolution : Obligations.RoundConstantLayerIsInvolution := fun b x =>
  ⟨fun i => xrc_getElem b x i.val i.isLt, xrc_xrc b x⟩

/-! ## One sub-iteration, lane by lane -/

/-- The function that APPLY sends lane k through, F(k+1) (42_block_core.md R161). -/
def laneRole : LaneIdx → LaneFn
  | 0 => .f1
  | 1 => .f2
  | 2 => .f3
  | 3 => .f4

/-- A block put together from one lane for each position has those lanes. -/
theorem laneOf_joinLanes_apply (g : LaneIdx → Lane) (k : LaneIdx) :
    laneOf (joinLanes (g 0) (g 1) (g 2) (g 3)) k = g k := by
  obtain ⟨h0, h1, h2, h3⟩ := laneOf_joinLanes (g 0) (g 1) (g 2) (g 3)
  match k with
  | 0 => exact h0
  | 1 => exact h1
  | 2 => exact h2
  | 3 => exact h3

theorem laneOf_applyLanes (c : Cfg) (b : Block) (sk : Subkey) (k : LaneIdx) :
    laneOf (applyLanes c b sk) k = fwd c (laneRole k) (laneOf b k) sk :=
  laneOf_joinLanes_apply (fun j => fwd c (laneRole j) (laneOf b j) sk) k

theorem laneOf_applyLanesInv (c : Cfg) (b : Block) (sk : Subkey) (k : LaneIdx) :
    laneOf (applyLanesInv c b sk) k = invf c (laneRole k) (laneOf b k) sk :=
  laneOf_joinLanes_apply (fun j => invf c (laneRole j) (laneOf b j) sk) k

theorem applyLanesInv_applyLanes (c : Cfg) (b : Block) (sk : Subkey) : applyLanesInv c (applyLanes c b sk) sk = b := by
  apply block_ext_lanes
  intro k
  rw [laneOf_applyLanesInv, laneOf_applyLanes, invf_fwd]

theorem applyLanes_applyLanesInv (c : Cfg) (b : Block) (sk : Subkey) : applyLanes c (applyLanesInv c b sk) sk = b := by
  apply block_ext_lanes
  intro k
  rw [laneOf_applyLanes, laneOf_applyLanesInv, fwd_invf]

/-- Four lane positions on is the same position, the rotation by 16 bytes of R173. -/
theorem lane_add_three_add_one (k : LaneIdx) : k + 3 + 1 = k := by revert k; decide

theorem lane_add_one_add_three (k : LaneIdx) : k + 1 + 3 = k := by revert k; decide

theorem rotrBytes_four_rotlBytes_four (b : Block) : rotrBytes 4 (rotlBytes 4 b) = b := by
  apply block_ext_lanes
  intro k
  rw [laneOf_rotrBytes_four, laneOf_rotlBytes_four, lane_add_three_add_one]

theorem rotlBytes_four_rotrBytes_four (b : Block) : rotlBytes 4 (rotrBytes 4 b) = b := by
  apply block_ext_lanes
  intro k
  rw [laneOf_rotlBytes_four, laneOf_rotrBytes_four, lane_add_one_add_three]

theorem laneOf_subIter (c : Cfg) (sk : Subkey) (b : Block) (k : LaneIdx) :
    laneOf (subIter c sk b) k = fwd c (laneRole (k + 1)) (laneOf b (k + 1)) sk := by
  rw [subIter, laneOf_rotlBytes_four, laneOf_applyLanes]

theorem laneOf_subIterInv (c : Cfg) (sk : Subkey) (b : Block) (k : LaneIdx) :
    laneOf (subIterInv c sk b) k = invf c (laneRole k) (laneOf b (k + 3)) sk := by
  rw [subIterInv, laneOf_applyLanesInv, laneOf_rotrBytes_four]

theorem subIterInv_leftInverse (c : Cfg) (sk : Subkey) : Function.LeftInverse (subIterInv c sk) (subIter c sk) := by
  intro b
  rw [subIterInv, subIter, rotrBytes_four_rotlBytes_four, applyLanesInv_applyLanes]

theorem subIterInv_rightInverse (c : Cfg) (sk : Subkey) : Function.RightInverse (subIterInv c sk) (subIter c sk) := by
  intro b
  rw [subIterInv, subIter, applyLanes_applyLanesInv, rotlBytes_four_rotrBytes_four]

/-! ## Four sub-iterations -/

theorem repeatN_eq_iterate (n : Nat) (f : Block → Block) : repeatN n f = f^[n] := by
  induction n with
  | zero => rfl
  | succ n ih => funext b; rw [repeatN, ih, Function.iterate_succ_apply]

theorem repeatN_repeatN_of_leftInverse {f g : Block → Block} (h : Function.LeftInverse g f) (n : Nat) (b : Block) :
    repeatN n g (repeatN n f b) = b := by
  rw [repeatN_eq_iterate, repeatN_eq_iterate]
  exact h.iterate n b

/-- Lane k goes through its own role first and then through those of the lanes before it, downwards (42_block_core.md
R173). -/
theorem laneOf_repeatN_four_subIter (c : Cfg) (sk : Subkey) (b : Block) (k : LaneIdx) :
    laneOf (repeatN 4 (subIter c sk) b) k =
      fwd c (laneRole (k + 1)) (fwd c (laneRole (k + 2)) (fwd c (laneRole (k + 3))
        (fwd c (laneRole k) (laneOf b k) sk) sk) sk) sk := by
  simp only [repeatN, laneOf_subIter]
  match k with
  | 0 | 1 | 2 | 3 => rfl

/-- The inverse sub-iterations take the roles of lane k in the opposite order. -/
theorem laneOf_repeatN_four_subIterInv (c : Cfg) (sk : Subkey) (b : Block) (k : LaneIdx) :
    laneOf (repeatN 4 (subIterInv c sk) b) k =
      invf c (laneRole k) (invf c (laneRole (k + 3)) (invf c (laneRole (k + 2))
        (invf c (laneRole (k + 1)) (laneOf b k) sk) sk) sk) sk := by
  simp only [repeatN, laneOf_subIterInv]
  match k with
  | 0 | 1 | 2 | 3 => rfl

/-- Settles O49: `laneOf_subIter` and `laneOf_repeatN_four_subIter` at each lane. -/
theorem everyLaneTakesEveryRole : Obligations.EveryLaneTakesEveryRole := by
  intro c sk b
  refine ⟨fun k => ?_, laneOf_repeatN_four_subIter c sk b 0, laneOf_repeatN_four_subIter c sk b 1,
    laneOf_repeatN_four_subIter c sk b 2, laneOf_repeatN_four_subIter c sk b 3⟩
  rw [laneOf_subIter]
  match k with
  | 0 | 1 | 2 | 3 => rfl

/-! ## One round -/

/-- The round constant is byte 0 of the subkey. -/
theorem round_eq (c : Cfg) (b k : Block) (r : RoundIdx) :
    round c b k r = repeatN 4 (subIter c (subkeyOf c k r)) (pout c (xrc b (c.rc r))) := rfl

theorem roundInv_eq (c : Cfg) (b k : Block) (r : RoundIdx) :
    roundInv c b k r = xrc (poutInv c (repeatN 4 (subIterInv c (subkeyOf c k r)) b)) (c.rc r) := rfl

theorem roundInv_round (c : Cfg) (b k : Block) (r : RoundIdx) : roundInv c (round c b k r) k r = b := by
  rw [roundInv_eq, round_eq, repeatN_repeatN_of_leftInverse (subIterInv_leftInverse c _), poutInv_pout, xrc_xrc]

theorem round_roundInv (c : Cfg) (b k : Block) (r : RoundIdx) : round c (roundInv c b k r) k r = b := by
  rw [roundInv_eq, round_eq, xrc_xrc, pout_poutInv, repeatN_repeatN_of_leftInverse (subIterInv_rightInverse c _)]

/-- Settles O50: the lanes are those of the four sub-iterations, and each of the three layers is undone in turn. -/
theorem roundIsInvertible : Obligations.RoundIsInvertible := by
  refine ⟨fun b k i => laneOf_getElem b k i.val i.isLt, fun c b k r => ?_⟩
  have hround := laneOf_repeatN_four_subIter c (subkeyOf c k r) (pout c (xrc b (c.rc r)))
  have hinv := laneOf_repeatN_four_subIterInv c (subkeyOf c k r) b
  exact ⟨⟨hround 0, hround 1, hround 2, hround 3⟩, ⟨_, roundInv_eq c b k r, hinv 0, hinv 1, hinv 2, hinv 3⟩,
    roundInv_round c b k r, round_roundInv c b k r⟩

/-! ## Sixteen rounds -/

/-- A fold over a list is undone by folding the inverses over the reversed list. -/
theorem foldl_reverse_foldl {α β : Type} {f g : β → α → β} (h : ∀ b a, g (f b a) a = b) (l : List α) (b : β) :
    l.reverse.foldl g (l.foldl f b) = b := by
  induction l generalizing b with
  | nil => rfl
  | cons a l ih => rw [List.reverse_cons, List.foldl_concat, List.foldl_cons, ih, h]

theorem decrypt_encrypt (c : Cfg) (b k : Block) : decrypt c (encrypt c b k) k = b :=
  foldl_reverse_foldl (fun x r => roundInv_round c x k r) allRounds b

theorem encrypt_decrypt (c : Cfg) (b k : Block) : encrypt c (decrypt c b k) k = b :=
  calc encrypt c (decrypt c b k) k
      = allRounds.reverse.reverse.foldl (fun x r => round c x k r) (decrypt c b k) := by
        rw [List.reverse_reverse, encrypt]
    _ = b := foldl_reverse_foldl (fun x r => round_roundInv c x k r) allRounds.reverse b

/-- Settles O51: each inverse round undoes its round, and the sixteen are undone in the opposite order. -/
theorem decryptUndoesEncrypt : Obligations.DecryptUndoesEncrypt := fun c b k =>
  ⟨decrypt_encrypt c b k, encrypt_decrypt c b k⟩

/-! ## The commands over a list of rounds -/

/-- Steps that write only the block, from the block and the key, add up to one such step. -/
theorem foldl_with_data (f : Block → Block → RoundIdx → Block) (l : List RoundIdx) (s : State) :
    l.foldl (fun u r => { u with data := f u.data u.key r }) s =
      { s with data := l.foldl (fun x r => f x s.key r) s.data } := by
  induction l generalizing s with
  | nil => rfl
  | cons r l ih => rw [List.foldl_cons, ih, List.foldl_cons]

theorem foldl_encrEffect (c : Cfg) (l : List RoundIdx) (s : State) :
    l.foldl (fun u r => encrEffect c r u) s = { s with data := l.foldl (fun x r => round c x s.key r) s.data } :=
  foldl_with_data (round c) l s

theorem foldl_decrEffect (c : Cfg) (l : List RoundIdx) (s : State) :
    l.foldl (fun u r => decrEffect c r u) s = { s with data := l.foldl (fun x r => roundInv c x s.key r) s.data } :=
  foldl_with_data (roundInv c) l s

/-- Settles O52: the round commands leave KEY and everything but the block, so their effects are the fold that ENC and
DEC compute, and DATAMASK alone is left to clear. -/
theorem encIsTheSixteenRounds : Obligations.EncIsTheSixteenRounds := by
  intro c s
  rw [foldl_encrEffect, foldl_decrEffect]
  exact ⟨rfl, rfl, rfl, rfl⟩

end Sys2Proof.Machine
end

section
/-! The CMD write (43_control_commands.md R190): the word an accepted command is held as, the checks in their order, and
the acceptance. The model accepts `encode i`, so that the accepted word is the written one needs the encoder to undo the
decoder. -/

namespace Sys2Proof

/-! ## A legal word is the encoding of its instruction -/

/-- The strictness check passes only its own instruction, and only with the reserved and the unused bits 0. -/
theorem strict_eq_ok_iff (w : Word) (unused : Bool) (i j : Instr) : strict w unused i = .ok j ↔
    fieldReserved31 w = 0#18 ∧ fieldReserved11 w = 0#1 ∧ unused = false ∧ i = j := by
  unfold strict
  split
  case isTrue h => simp only [reduceCtorEq, false_iff]; tauto
  case isFalse h =>
    push Not at h
    cases unused <;> simp [h]

/-- A word whose reserved bits are 0 is packed from its own fields. -/
theorem packWord_fields (w : Word) (h31 : fieldReserved31 w = 0#18) (h11 : fieldReserved11 w = 0#1) :
    packWord (fieldOp w) (fieldRidx w) (fieldFn w) (fieldInv w) (fieldLane w) = w := by
  obtain ⟨hop, hridx, hfn, hinv, hlane, hp11, hp31⟩ :=
    fields_packWord (fieldOp w) (fieldRidx w) (fieldFn w) (fieldInv w) (fieldLane w)
  exact word_ext_fields _ _ hop hridx hfn hinv (hp11.trans h11.symm) hlane (hp31.trans h31.symm)

section

variable {w : Word} {i j : Instr}

/-- A checked instruction encodes to the word if its encoding packs the word's fields. -/
theorem encode_of_strict {unused : Bool} (h : strict w unused i = .ok j)
    (hi : unused = false → encode i = packWord (fieldOp w) (fieldRidx w) (fieldFn w) (fieldInv w) (fieldLane w)) :
    encode j = w := by
  obtain ⟨h31, h11, hused, rfl⟩ := (strict_eq_ok_iff w unused i j).mp h
  exact (hi hused).trans (packWord_fields w h31 h11)

theorem encode_of_strictPlain (h : strictPlain w i = .ok j) (hi : encode i = packWord (fieldOp w) 0#4 0#2 0#1 0#2) :
    encode j = w := by
  refine encode_of_strict h fun hused => ?_
  simp only [Bool.or_eq_false_iff, decide_eq_false_iff_not, not_not] at hused
  obtain ⟨⟨⟨hridx, hfn⟩, hinv⟩, hlane⟩ := hused
  rw [hi, hridx, hfn, hinv, hlane]

theorem encode_of_strictRound (h : strictRound w i = .ok j)
    (hi : encode i = packWord (fieldOp w) (fieldRidx w) 0#2 0#1 0#2) : encode j = w := by
  refine encode_of_strict h fun hused => ?_
  simp only [Bool.or_eq_false_iff, decide_eq_false_iff_not, not_not] at hused
  obtain ⟨⟨hfn, hinv⟩, hlane⟩ := hused
  rw [hi, hfn, hinv, hlane]

end

/-- The encoder undoes the decoder on every legal word: each row's check leaves the word no bit but those its
instruction encodes (30_encoding.md R82, R85). -/
theorem encode_of_decode {w : Word} {i : Instr} (h : decode w = .ok i) : encode i = w := by
  have hop {n : Nat} (hn : (fieldOp w).toNat = n) : fieldOp w = BitVec.ofNat 4 n := by
    rw [← hn, BitVec.ofNat_toNat, BitVec.setWidth_eq]
  unfold decode at h
  split at h
  case h_1 hn | h_2 hn | h_3 hn | h_8 hn => exact encode_of_strictPlain h (by rw [hop hn]; rfl)
  case h_4 hn | h_5 hn | h_6 hn => exact encode_of_strictRound h (by rw [hop hn]; rfl)
  case h_7 hn =>
    split at h
    case isTrue hinv =>
      refine encode_of_strict h fun _ => ?_
      rw [encode, fnOfField_field, hop hn, hinv]
      rfl
    case isFalse hinv =>
      refine encode_of_strict h fun _ => ?_
      rw [encode, fnOfField_field, hop hn, (BitVec.eq_zero_or_eq_one _).resolve_left hinv]
      rfl
  case h_9 => cases h

end Sys2Proof

namespace Sys2Proof.Machine

/-! ## Which commands need the key and the block -/

theorem needsKey_iff (i : Instr) : needsKey i = true ↔ i ≠ .nop ∧ i ≠ .clear := by
  cases i <;> simp [needsKey]

theorem needsData_iff (i : Instr) : needsData i = true ↔ i ≠ .nop ∧ i ≠ .clear ∧ ∀ r, i ≠ .subkey r := by
  cases i <;> simp [needsData]

/-! ## The checks in order, and the acceptance -/

theorem maskFull_eq_true_iff (m : BitVec 4) : maskFull m = true ↔ m = 0b1111#4 := decide_eq_true_iff

theorem maskFull_eq_false_iff (m : BitVec 4) : maskFull m = false ↔ m ≠ 0b1111#4 := decide_eq_false_iff_not

/-- The issue as its two mask checks in order, then the acceptance (43_control_commands.md R190). -/
theorem issue_eq_ite (nk nd : Bool) (w : Word) (s : State) :
    issue nk nd w s =
      if nk = true ∧ s.keyMask ≠ 0b1111#4 then raiseError .keyIncomplete s
      else if nd = true ∧ s.dataMask ≠ 0b1111#4 then raiseError .dataIncomplete s
      else accept w s := by
  rcases issue_cases nk nd w s with ⟨hnk, hkey, h⟩ | ⟨hkey, hnd, hdata, h⟩ | ⟨hkey, hdata, h⟩ <;> rw [h]
  · rw [if_pos ⟨hnk, (maskFull_eq_false_iff _).mp hkey⟩]
  · rw [maskFull_eq_true_iff] at hkey
    rw [if_neg fun hk => hk.2 (hkey hk.1), if_pos ⟨hnd, (maskFull_eq_false_iff _).mp hdata⟩]
  · rw [maskFull_eq_true_iff] at hkey hdata
    rw [if_neg fun hk => hk.2 (hkey hk.1), if_neg fun hd => hd.2 (hdata hd.1)]

theorem issueWord_of_busy {s : State} {c : Word} (hp : s.phase = .busy c) (w : Word) :
    issueWord w s = .next (raiseError .busy s) := by
  simp [issueWord, busyBit_of_busy hp]

/-- An idle CORE issues the written word of a legal command with the needs of its instruction. -/
theorem issueWord_of_decode_ok {s : State} {w : Word} {i : Instr} (hp : s.phase = .idle) (hd : decode w = .ok i) :
    issueWord w s = .next (issue (needsKey i) (needsData i) w s) :=
  calc issueWord w s
      = exec i s := by simp [issueWord, busyBit_of_idle hp, hd]
    _ = .next (issue (needsKey i) (needsData i) (encode i) s) := by rw [exec_eq_command, command, hp]
    _ = .next (issue (needsKey i) (needsData i) w s) := by rw [encode_of_decode hd]

/-- Settles O13: the CMD write is `issueWord`, which refuses while busy, then an illegal word, and issues a legal one,
whose checks come in the order of `issue_eq_ite`. -/
theorem cmdWriteIssuesInOrder : Obligations.CmdWriteIssuesInOrder := by
  refine ⟨needsKey_iff, needsData_iff, fun s w hr => ?_⟩
  rw [regWrite_cmd hr]
  refine ⟨fun c hp => issueWord_of_busy hp w, fun hp => ⟨fun e hd => issueWord_of_decode_error hp hd, fun i hd =>
    ⟨_, issueWord_of_decode_ok hp hd, ?_⟩⟩⟩
  have hissue := issue_eq_ite (needsKey i) (needsData i) w s
  split_ifs at hissue ⊢
  · exact hissue
  · exact hissue
  · rw [hissue, accept]

end Sys2Proof.Machine
end

section
/-! The padding of the host's driver (44_host_driver.md R203, R204): the bytes pad appends, the count it ends in, and unpad
as a function of the last byte. -/

namespace Sys2Proof.Machine

/-! ## pad -/

theorem padLen_pos (d : List Byte) : 0 < padLen d := by unfold padLen; omega

theorem padLen_le (d : List Byte) : padLen d ≤ 16 := Nat.sub_le ..

theorem length_pad_eq_add (d : List Byte) : (pad d).length = d.length + padLen d := by simp [pad]

/-- The pad fills the string up to the next multiple of 16, past it when it already is one. -/
theorem length_pad (d : List Byte) : (pad d).length = 16 * (d.length / 16 + 1) := by
  rw [length_pad_eq_add, padLen]
  omega

@[simp] theorem take_length_pad (d : List Byte) : (pad d).take d.length = d := List.take_left

theorem getElem?_pad_add (d : List Byte) {j : Nat} (hj : j < padLen d) :
    (pad d)[d.length + j]? = some (BitVec.ofNat 8 (j + 1)) := by
  simp [pad, hj]

/-- The last byte of a padded string is its pad length: it is the pad's byte number padLen. -/
theorem getLast?_pad (d : List Byte) : (pad d).getLast? = some (BitVec.ofNat 8 (padLen d)) := by
  have hpos := padLen_pos d
  have hlast : (pad d).length - 1 = d.length + (padLen d - 1) := by
    rw [length_pad_eq_add]
    omega
  rw [List.getLast?_eq_getElem?, hlast, getElem?_pad_add d (Nat.sub_lt hpos Nat.one_pos), Nat.sub_add_cancel hpos]

/-- Settles O53: each clause is the lemma of pad for it. -/
theorem padEndsInItsLength : Obligations.PadEndsInItsLength := fun d =>
  ⟨take_length_pad d, length_pad d, fun _ hj => getElem?_pad_add d hj, getLast?_pad d⟩

/-! ## unpad -/

theorem unpad_of_getLast? {d : List Byte} {p : Byte} (hp : d.getLast? = some p) :
    unpad d = if d.length < p.toNat then .error .padLength else .ok (d.take (d.length - p.toNat)) := by
  rw [unpad, hp]

/-- Settles O54: the last byte of `xs ++ [p]` is p. -/
theorem unpadTrustsTheCount : Obligations.UnpadTrustsTheCount := fun xs p => by
  rw [unpad_of_getLast? List.getLast?_concat, List.length_append, List.length_singleton]

/-- unpad undoes pad: the count it trusts is at most 16, so a byte holds it, and it is the number of bytes appended. -/
theorem unpad_pad (d : List Byte) : unpad (pad d) = .ok d := by
  have hcount : (BitVec.ofNat 8 (padLen d)).toNat = padLen d :=
    Nat.mod_eq_of_lt (Nat.lt_of_le_of_lt (padLen_le d) (by decide))
  rw [unpad_of_getLast? (getLast?_pad d), hcount, length_pad_eq_add, if_neg (Nat.not_lt.mpr (Nat.le_add_left ..)),
    Nat.add_sub_cancel, take_length_pad]

end Sys2Proof.Machine
end

section
/-! The streams of the host's driver (44_host_driver.md R202, R205, R206): a string of whole blocks is its blocks in order,
so a stream transforms the blocks one by one, and decryption undoes encryption block by block. -/

namespace Sys2Proof.Machine

/-! ## The bytes of a block -/

/-- A block is the given 16 bytes, in order (00_scope.md R14). -/
theorem blockOfBytes_take_eq_iff {d : List Byte} (hd : 16 ≤ d.length) (b : Block) :
    blockOfBytes (d.take 16) = b ↔ ∀ j : Fin 16, d[j.val]? = some b[j] := by
  have hentry : ∀ j : Fin 16, (blockOfBytes (d.take 16))[j] = b[j] ↔ d[j.val]? = some b[j] := fun j => by
    have hj : j.val < d.length := Nat.lt_of_lt_of_le j.isLt hd
    simp [blockOfBytes, hj]
  exact ⟨fun h j => (hentry j).mp (h ▸ rfl), fun h => Vector.ext fun i hi => (hentry ⟨i, hi⟩).mpr (h ⟨i, hi⟩)⟩

@[simp] theorem blockOfBytes_toList (b : Block) : blockOfBytes b.toList = b := by
  apply Vector.ext
  intro i hi
  simp [blockOfBytes]

theorem toList_blockOfBytes {d : List Byte} (hd : d.length = 16) : (blockOfBytes d).toList = d := by
  apply List.ext_getElem
  · simp [hd]
  · intro i _ hi
    simp [blockOfBytes, hi]

/-! ## Splitting and joining -/

@[simp] theorem length_splitBlocks (n : Nat) (d : List Byte) : (splitBlocks n d).length = n := by
  induction n generalizing d with
  | zero => rfl
  | succ n ih => rw [splitBlocks, List.length_cons, ih]

@[simp] theorem length_blocksOf (d : List Byte) : (blocksOf d).length = d.length / 16 := length_splitBlocks ..

/-- Block i of the first n is the bytes 16i to 16i+15. -/
theorem getElem?_splitBlocks_eq_some_iff {n : Nat} {d : List Byte} (hd : 16 * n ≤ d.length) (i : Nat) (b : Block) :
    (splitBlocks n d)[i]? = some b ↔ i < n ∧ ∀ j : Fin 16, d[16 * i + j.val]? = some b[j] := by
  induction n generalizing d i with
  | zero => simp [splitBlocks]
  | succ n ih =>
    cases i with
    | zero => simp [splitBlocks, blockOfBytes_take_eq_iff (show 16 ≤ d.length by omega)]
    | succ i =>
      have hdrop : 16 * n ≤ (d.drop 16).length := by rw [List.length_drop]; omega
      have hpos (j : Nat) : 16 + (16 * i + j) = 16 * (i + 1) + j := by omega
      simp [splitBlocks, ih hdrop, hpos]

/-- A string has block i just when it has the bytes 16i to 16i+15, and they are the block. -/
theorem getElem?_blocksOf_eq_some_iff (d : List Byte) (i : Nat) (b : Block) :
    (blocksOf d)[i]? = some b ↔ ∀ j : Fin 16, d[16 * i + j.val]? = some b[j] := by
  rw [blocksOf, getElem?_splitBlocks_eq_some_iff (Nat.mul_div_le ..), and_iff_right_iff_imp]
  intro h
  obtain ⟨hlast, -⟩ := List.getElem?_eq_some_iff.mp (h 15)
  simp only [Fin.coe_ofNat_eq_mod] at hlast
  omega

@[simp] theorem joinBlocks_cons (b : Block) (bs : List Block) : joinBlocks (b :: bs) = b.toList ++ joinBlocks bs := rfl

@[simp] theorem length_joinBlocks (bs : List Block) : (joinBlocks bs).length = 16 * bs.length := by
  induction bs with
  | nil => rfl
  | cons b bs ih => rw [joinBlocks_cons, List.length_append, ih, Vector.length_toList, List.length_cons]; omega

theorem splitBlocks_joinBlocks (bs : List Block) : splitBlocks bs.length (joinBlocks bs) = bs := by
  induction bs with
  | nil => rfl
  | cons b bs ih => simp [splitBlocks, ih]

theorem joinBlocks_splitBlocks {n : Nat} {d : List Byte} (hd : d.length = 16 * n) : joinBlocks (splitBlocks n d) = d := by
  induction n generalizing d with
  | zero => exact (List.length_eq_zero_iff.mp hd).symm
  | succ n ih =>
    have htake : (d.take 16).length = 16 := by rw [List.length_take]; omega
    have hdrop : (d.drop 16).length = 16 * n := by rw [List.length_drop]; omega
    rw [splitBlocks, joinBlocks_cons, toList_blockOfBytes htake, ih hdrop, List.take_append_drop]

/-- Joined blocks split into the same blocks. -/
@[simp] theorem blocksOf_joinBlocks (bs : List Block) : blocksOf (joinBlocks bs) = bs := by
  rw [blocksOf, length_joinBlocks, Nat.mul_div_cancel_left _ (by decide), splitBlocks_joinBlocks]

/-- A string of whole blocks is its blocks joined. -/
theorem joinBlocks_blocksOf {d : List Byte} (hd : d.length % 16 = 0) : joinBlocks (blocksOf d) = d :=
  joinBlocks_splitBlocks (Nat.mul_div_cancel' (Nat.dvd_of_mod_eq_zero hd)).symm

/-! ## The streams -/

@[simp] theorem blocksOf_encryptStream (c : Cfg) (d : List Byte) (k : Block) :
    blocksOf (encryptStream c d k) = (blocksOf (pad d)).map fun b => encrypt c b k := blocksOf_joinBlocks _

theorem length_encryptStream (c : Cfg) (d : List Byte) (k : Block) :
    (encryptStream c d k).length = 16 * (d.length / 16 + 1) := by
  rw [encryptStream, length_joinBlocks, List.length_map, length_blocksOf, length_pad,
    Nat.mul_div_cancel_left _ (by decide)]

theorem streamLength_eq_true_iff (d : List Byte) : streamLength d = true ↔ d.length ≠ 0 ∧ d.length % 16 = 0 := by
  simp [streamLength]

theorem streamLength_eq_false_iff (d : List Byte) : streamLength d = false ↔ d.length = 0 ∨ d.length % 16 ≠ 0 := by
  rw [← Bool.not_eq_true, streamLength_eq_true_iff, not_and_or, not_not]

theorem decryptStream_of_streamLength (c : Cfg) {d : List Byte} (k : Block) (hd : streamLength d = true) :
    decryptStream c d k = unpad (joinBlocks ((blocksOf d).map fun b => decrypt c b k)) := if_pos hd

theorem decryptStream_of_not_streamLength (c : Cfg) {d : List Byte} (k : Block) (hd : streamLength d = false) :
    decryptStream c d k = .error .inputLength := by
  rw [decryptStream, hd, if_neg Bool.false_ne_true]

theorem streamLength_encryptStream (c : Cfg) (d : List Byte) (k : Block) :
    streamLength (encryptStream c d k) = true := by
  rw [streamLength_eq_true_iff, length_encryptStream]
  omega

theorem map_decrypt_map_encrypt (c : Cfg) (k : Block) (bs : List Block) :
    (bs.map fun b => encrypt c b k).map (fun b => decrypt c b k) = bs := by
  simp [Function.comp_def, decrypt_encrypt]

/-- The stream form of `decrypt_encrypt`: the blocks come back one by one, and with them the padded string. -/
theorem decryptStream_encryptStream (c : Cfg) (k : Block) (d : List Byte) :
    decryptStream c (encryptStream c d k) k = .ok d :=
  have hwhole : (pad d).length % 16 = 0 := by rw [length_pad, Nat.mul_mod_right]
  calc decryptStream c (encryptStream c d k) k
      = unpad (joinBlocks ((blocksOf (encryptStream c d k)).map fun b => decrypt c b k)) :=
        decryptStream_of_streamLength c k (streamLength_encryptStream c d k)
    _ = unpad (joinBlocks (blocksOf (pad d))) := by rw [blocksOf_encryptStream, map_decrypt_map_encrypt]
    _ = unpad (pad d) := by rw [joinBlocks_blocksOf hwhole]
    _ = .ok d := unpad_pad d

/-- Settles O55: `unpad_pad` for the padding, `decryptStream_encryptStream` for the blocks, and the lengths. -/
theorem streamLawsHold : Obligations.StreamLawsHold := fun c k d =>
  ⟨unpad_pad d, decryptStream_encryptStream c k d, length_encryptStream c d k, length_encryptStream c [] k⟩

/-- Settles O56: both streams are `joinBlocks` of a map over blocks, which `blocksOf` gives back, so block i depends on
block i alone. -/
theorem blocksAreIndependent : Obligations.BlocksAreIndependent := by
  refine ⟨getElem?_blocksOf_eq_some_iff, fun c k d e i => ⟨?_, ?_, fun hne hmod => ?_, fun hd => ?_, fun h => ?_,
    fun h => ?_⟩⟩
  · rw [length_encryptStream, length_pad]
  · rw [blocksOf_encryptStream, List.getElem?_map]
  · refine ⟨_, decryptStream_of_streamLength c k ((streamLength_eq_true_iff d).mpr ⟨hne, hmod⟩), ?_, fun n => ?_⟩
    · rw [length_joinBlocks, List.length_map, length_blocksOf, Nat.mul_div_cancel' (Nat.dvd_of_mod_eq_zero hmod)]
    · rw [blocksOf_joinBlocks, List.getElem?_map]
  · exact decryptStream_of_not_streamLength c k ((streamLength_eq_false_iff d).mpr hd)
  · simp only [blocksOf_encryptStream, List.getElem?_map, h]
  · simp only [blocksOf_joinBlocks, List.getElem?_map, h]

/-! ## The guards of the entry point -/

/-- Settles O57: both forms of the entry point look at the key's length first, then, to decrypt, at the input's. -/
theorem driverRefusesBadLengths : Obligations.DriverRefusesBadLengths := by
  intro c buffer key dir scrub
  refine ⟨fun hkey => ⟨if_pos hkey, if_pos hkey⟩, fun hkey hbuffer => ?_⟩
  have hlen : streamLength buffer = false := (streamLength_eq_false_iff buffer).mpr hbuffer
  constructor
  · simpa [transform, hkey] using decryptStream_of_not_streamLength c (blockOfBytes key) hlen
  · simp [driveTransform, hkey, hlen]

end Sys2Proof.Machine
end

section
/-! The interrupt output and the writes that only raise an error (60_exceptions.md R232, R233, R240): the registers at the
indices the rules name, and what the write transaction is there. -/

namespace Sys2Proof.Machine

/-- Settles O24: IRQ is the disjunction of its two conjunctions, read as propositions. -/
theorem irqIsLevelOfEnabledSources : Obligations.IrqIsLevelOfEnabledSources := fun s => by
  rw [irq, Bool.or_eq_true, Bool.and_eq_true, Bool.and_eq_true, bne_iff_ne]

/-! ## Read-only, write-only and unmapped indices -/

/-- The registers a write never reaches are ID, SKHI, SKLO and the unmapped ones (10_state.md R25). -/
theorem regOf_of_readOnly {idx : RegIndex} (h : idx.toNat = 0 ∨ 12 ≤ idx.toNat) :
    regOf idx = .id ∨ regOf idx = .skhi ∨ regOf idx = .sklo ∨ regOf idx = .unmapped := by
  revert idx; decide

/-- The write-only indices are CMD and KEYk (10_state.md R25). -/
theorem eq_cmd_or_keyIndex {idx : RegIndex} (hlo : 3 ≤ idx.toNat) (hhi : idx.toNat ≤ 7) :
    idx = 3#6 ∨ ∃ k, idx = keyIndex k := by
  revert idx; decide

/-- The indices CORE writes only while idle are CMD, KEYk and DATAk (10_state.md R25). -/
theorem eq_cmd_or_keyIndex_or_dataIndex {idx : RegIndex} (hlo : 3 ≤ idx.toNat) (hhi : idx.toNat ≤ 11) :
    idx = 3#6 ∨ (∃ k, idx = keyIndex k) ∨ ∃ k, idx = dataIndex k := by
  revert idx; decide

/-! ## The writes -/

section

variable {s : State} (hr : s.rst = false)
include hr

theorem regWrite_readOnly {idx : RegIndex} (h : idx.toNat = 0 ∨ 12 ≤ idx.toNat) (w : Word) :
    regWrite idx w s = .next (raiseError .access s) := by
  rcases regOf_of_readOnly h with hreg | hreg | hreg | hreg <;> simp [regWrite, hr, hreg]

theorem regWrite_dataIndex (k : LaneIdx) (w : Word) : regWrite (dataIndex k) w s = .next (writeData k w s) := by
  simp [regWrite, hr, (regOf_of_index k).2]

end

theorem writeData_of_busy {s : State} {c : Word} (hp : s.phase = .busy c) (k : LaneIdx) (w : Word) :
    writeData k w s = raiseError .busy s := by
  simp [writeData, busyBit_of_busy hp]

/-- Settles O21: such a write is `raiseError`, with code 5; a read moves the index of the free values at most, and the
write-only and unmapped indices read 0. -/
theorem readOnlyWritesRaiseAccess : Obligations.ReadOnlyWritesRaiseAccess := by
  intro s idx w hr
  obtain ⟨v, n, hread⟩ := regRead_eq_with_draws idx s
  refine ⟨fun hidx => regWrite_readOnly hr hidx w, by rw [hread], by rw [hread], ?_⟩
  rintro (⟨hlo, hhi⟩ | hunmapped)
  · rcases eq_cmd_or_keyIndex hlo hhi with rfl | ⟨k, rfl⟩
    · exact regRead_cmd hr
    · exact regRead_keyIndex hr k
  · exact regRead_unmapped hr hunmapped

/-- Settles O22: at CMD, KEYk and DATAk alike a busy CORE answers with `raiseError`, with code 4. -/
theorem busyWritesAreLost : Obligations.BusyWritesAreLost := by
  intro s c idx w hr hp hlo hhi
  suffices h : regWrite idx w s = .next (raiseError .busy s) from h
  rcases eq_cmd_or_keyIndex_or_dataIndex hlo hhi with rfl | ⟨k, rfl⟩ | ⟨k, rfl⟩
  · rw [regWrite_cmd hr, issueWord_of_busy hp]
  · rw [regWrite_keyIndex hr, writeKey_of_busy hp]
  · rw [regWrite_dataIndex hr, writeData_of_busy hp]

end Sys2Proof.Machine
end

section
/-! ERR and OVF (60_exceptions.md R236): what each step does to the two fields, said once, and from it when an error is
kept and when it is cleared. -/

namespace Sys2Proof.Machine

/-! ## ERR and OVF after a raise and after a completion -/

/-- ERR records the first error alone (60_exceptions.md R236). -/
theorem raiseError_err (code : ErrorCode) (s : State) :
    (raiseError code s).err = if s.err = 0#4 then errorValue code else s.err := by
  unfold raiseError; split <;> rfl

/-- OVF records an error after the first (60_exceptions.md R236). -/
theorem raiseError_ovf (code : ErrorCode) (s : State) :
    (raiseError code s).ovf = if s.err = 0#4 then s.ovf else true := by
  unfold raiseError; split <;> rfl

/-- No effect of a command reaches ERR (60_exceptions.md R238). -/
theorem effectOf_err (c : Cfg) (i : Instr) (s : State) : (effectOf c i s).err = s.err := by
  rw [effectOf_frame]

/-- No effect of a command reaches OVF (60_exceptions.md R238). -/
theorem effectOf_ovf (c : Cfg) (i : Instr) (s : State) : (effectOf c i s).ovf = s.ovf := by
  rw [effectOf_frame]

/-! ## What a step does to ERR and OVF -/

/-- Every way a step can act on ERR and OVF, with the event that does it (60_exceptions.md R236). -/
inductive ErrorMove (s t : State) : Prop
  /-- Reset is entered or held. -/
  | reset (hreset : resets s) (herr : t.err = 0#4) (hovf : t.ovf = false)
  /-- A write raises an error; no CTRL or STATUS write does. -/
  | raised (hreset : ¬ resets s) (idx : RegIndex) (w : Word) (code : ErrorCode)
      (hop : hostMoves s = some (.wr idx w)) (hctrl : idx ≠ 1#6) (hstatus : idx ≠ 2#6)
      (herr : t.err = if s.err = 0#4 then errorValue code else s.err)
      (hovf : t.ovf = if s.err = 0#4 then s.ovf else true)
  /-- A STATUS write acknowledges, or leaves bit 2 clear. -/
  | status (hreset : ¬ resets s) (w : Word) (hop : hostMoves s = some (.wr 2#6 w))
      (herr : t.err = if w.getLsbD 2 then 0#4 else s.err) (hovf : t.ovf = if w.getLsbD 2 then false else s.ovf)
  /-- None of these events. -/
  | keep (hreset : ¬ resets s) (hop : ∀ w, hostMoves s ≠ some (.wr 2#6 w)) (herr : t.err = s.err)
      (hovf : t.ovf = s.ovf)

/-- While RST is asserted no operation of the host records an error (70_reset_and_hazards.md R263). -/
theorem HostMove.err_zero_of_rst {s t : State} {op : HostOp} (hm : HostMove s op t) (hr : s.rst = true)
    (herr : s.err = 0#4) (hovf : s.ovf = false) : t.err = 0#4 ∧ t.ovf = false := by
  cases hm with
  | quiet _ _ hcore => exact ⟨hcore.err.trans herr, hcore.ovf.trans hovf⟩
  | rst level => cases level <;> simp [driveRst, State.reset, herr, hovf]
  | error _ _ _ hlow | ctrl _ hlow | status _ hlow | key _ _ hlow | data _ _ hlow | accepted _ _ hlow =>
    exact absurd hr (by simp [hlow])

/-- The host's move of an idle CORE, or of a busy one with latency left, as a move of ERR and OVF. -/
theorem HostMove.errorMove {s t : State} {op : HostOp} {lat : Nat} {rest : List HostOp}
    (hm : HostMove { s with lat := lat, host := rest } op t) (hr : s.rst = false) (hop : hostMoves s = some op) :
    ErrorMove s t := by
  have keepWrite : ∀ {idx w}, op = .wr idx w → idx ≠ 2#6 → t.err = s.err → t.ovf = s.ovf → ErrorMove s t := by
    rintro idx w rfl hidx herr hovf
    exact .keep (not_resets_of_hostMoves hr hop (by simp)) (by simp [hop, hidx]) herr hovf
  cases hm with
  | quiet _ _ hcore hwr hrst =>
    refine .keep (not_resets_of_hostMoves hr hop (hrst true)) (fun w he => ?_) hcore.err hcore.ovf
    have hhigh : s.rst = true := hwr 2#6 w (Option.some.inj (hop.symm.trans he))
    exact absurd hhigh (by simp [hr])
  | error idx w code _ hctrl hstatus =>
    exact .raised (not_resets_of_hostMoves hr hop (by simp)) idx w code hop hctrl hstatus (raiseError_err ..)
      (raiseError_ovf ..)
  | ctrl w => exact keepWrite rfl (by decide) rfl rfl
  | status w => exact .status (not_resets_of_hostMoves hr hop (by simp)) w hop rfl rfl
  | key k w => exact keepWrite rfl (keyIndex_ne k).2 rfl rfl
  | data k w => exact keepWrite rfl (dataIndex_ne k).2 rfl rfl
  | accepted w i => exact keepWrite rfl (by decide) rfl rfl
  | rst level =>
    cases level with
    | true => exact .reset (.inr hop) rfl rfl
    | false => exact .keep (not_resets_of_hostMoves hr hop (by simp)) (by simp [hop]) rfl rfl

/-- Every step that goes on is one of the moves of ERR and OVF. -/
theorem step_errorMove {s t : State} (h : step s = .next t) : ErrorMove s t := by
  cases step_move s t h with
  | resetWait hr => exact .reset (.inl hr) rfl rfl
  | resetHost _ op rest hr _ hm =>
    obtain ⟨herr, hovf⟩ := hm.err_zero_of_rst (by simpa using hr) rfl rfl
    exact .reset (.inl hr) herr hovf
  | wait lat hr hh =>
    have hnone := hostMoves_eq_none_of_host_nil hh
    exact .keep (not_resets_of_hostMoves_none hr hnone) (by simp [hnone]) rfl rfl
  | host _ lat op rest hr _ _ hop _ hm => exact hm.errorMove hr hop
  | completion w i hr _ _ _ _ hop =>
    exact .keep (not_resets_of_hostMoves_none hr hop) (by simp [hop]) (effectOf_err ..) (effectOf_ovf ..)

/-! ## Reading the moves: what each event leaves -/

namespace ErrorMove

variable {s t : State}

theorem cleared_of_resets (h : ErrorMove s t) (hreset : resets s) : t.err = 0#4 ∧ t.ovf = false := by
  cases h with
  | reset _ herr hovf => exact ⟨herr, hovf⟩
  | raised hn | status hn | keep hn => exact absurd hreset hn

theorem cleared_of_statusWrite {w : Word} (h : ErrorMove s t) (hreset : ¬ resets s)
    (hw : hostMoves s = some (.wr 2#6 w)) (hbit : w.getLsbD 2 = true) : t.err = 0#4 ∧ t.ovf = false := by
  cases h with
  | status _ v hop herr hovf =>
    obtain rfl : v = w := by simpa [hop] using hw
    exact ⟨by rw [herr, if_pos hbit], by rw [hovf, if_pos hbit]⟩
  | reset hy => exact absurd hy hreset
  | raised _ idx v _ hop _ hstatus =>
    have hidx : idx = 2#6 ∧ v = w := by simpa [hop] using hw
    exact absurd hidx.1 hstatus
  | keep _ hop => exact absurd hw (hop w)

/-- Without an acknowledge a recorded error stays, and so does a recorded overflow. -/
theorem kept_of_not_acknowledged (h : ErrorMove s t) (hreset : ¬ resets s)
    (hack : ∀ w : Word, hostMoves s = some (.wr 2#6 w) → w.getLsbD 2 = false) :
    (s.err ≠ 0#4 → t.err = s.err) ∧ (s.ovf = true → t.ovf = true) := by
  cases h with
  | raised _ _ _ _ _ _ _ herr hovf => exact ⟨fun hne => by rw [herr, if_neg hne], fun hset => by simp [hovf, hset]⟩
  | status _ w hop herr hovf =>
    rw [if_neg (Bool.eq_false_iff.mp (hack w hop))] at herr hovf
    exact ⟨fun _ => herr, hovf.trans⟩
  | keep _ _ herr hovf => exact ⟨fun _ => herr, hovf.trans⟩
  | reset hy => exact absurd hy hreset

end ErrorMove

/-- Settles O20: raising is `raiseError` by definition; a step is one of the moves of ERR and OVF, and each clause reads
them for one event. -/
theorem firstErrorIsKeptUntilCleared : Obligations.FirstErrorIsKeptUntilCleared := by
  refine ⟨fun _ _ => rfl, rfl, rfl, rfl, rfl, rfl, fun s t h => ?_⟩
  have hm := step_errorMove h
  exact ⟨hm.cleared_of_resets, fun _ hn hw hbit => hm.cleared_of_statusWrite hn hw hbit, hm.kept_of_not_acknowledged⟩

end Sys2Proof.Machine
end

section
/-! Reset (70_reset_and_hazards.md R260, R261, R263): CORE is at its reset values exactly when `resetCore` leaves the state
alone, and every step in or into reset ends in such a state. -/

namespace Sys2Proof.Machine

/-! ## The states that reset leaves alone -/

/-- CORE is at its reset values: a reset changes nothing (10_state.md R45). -/
theorem resetCore_eq_self_iff (s : State) : resetCore s = s ↔
    s.ieDone = false ∧ s.ieErr = false ∧ s.phase = .idle ∧ s.done = false ∧ s.ovf = false ∧ s.err = 0#4 ∧
      s.keyMask = 0#4 ∧ s.dataMask = 0#4 ∧ s.key = Vector.replicate 16 0#8 ∧ s.data = Vector.replicate 16 0#8 ∧
      s.skhi = 0#32 ∧ s.sklo = 0#32 ∧ s.lat = 0 := by
  constructor
  · intro h
    rw [← h]
    exact ⟨rfl, rfl, rfl, rfl, rfl, rfl, rfl, rfl, rfl, rfl, rfl, rfl, rfl⟩
  · cases s
    rintro ⟨rfl, rfl, rfl, rfl, rfl, rfl, rfl, rfl, rfl, rfl, rfl, rfl, rfl⟩
    rfl

/-- With nothing enabled no source raises the line (60_exceptions.md R240). -/
theorem irq_resetCore (s : State) : irq (resetCore s) = false := rfl

theorem SameCore.resetCore_eq_self {s t : State} (h : SameCore s t) (hs : resetCore s = s) : resetCore t = t := by
  rw [resetCore_eq_self_iff] at hs ⊢
  rwa [h.ieDone, h.ieErr, h.phase, h.done, h.ovf, h.err, h.keyMask, h.dataMask, h.key, h.data, h.skhi, h.sklo, h.lat]

/-- Driving RST moves no other field of a CORE at its reset values, at either level. -/
theorem resetCore_driveRst (level : Bool) {s : State} (hs : resetCore s = s) :
    resetCore (driveRst level s) = driveRst level s := by
  cases level with
  | true => rfl
  | false => exact congrArg (fun u : State => { u with rst := false }) hs

/-! ## Steps in and into reset -/

/-- While RST is asserted no operation of the host moves CORE from its reset values (70_reset_and_hazards.md R263). -/
theorem HostMove.resetCore_eq_self_of_rst {s t : State} {op : HostOp} (hm : HostMove s op t) (hr : s.rst = true)
    (hs : resetCore s = s) : resetCore t = t := by
  cases hm with
  | quiet _ _ hcore => exact hcore.resetCore_eq_self hs
  | rst level => exact resetCore_driveRst level hs
  | error _ _ _ hlow | ctrl _ hlow | status _ hlow | key _ _ hlow | data _ _ hlow | accepted _ _ hlow =>
    exact absurd hr (by simp [hlow])

/-- Asserting RST puts CORE at its reset values from any state (70_reset_and_hazards.md R260, R261). -/
theorem HostMove.resetCore_eq_self_of_assert {s t : State} (hm : HostMove s (.setRst true) t) : resetCore t = t := by
  cases hm with
  | quiet _ _ _ _ hrst => exact absurd rfl (hrst true)
  | rst => rfl

/-- A step in or into reset goes on: it is a turn of the host, never the completion of PEND (70_reset_and_hazards.md R261). -/
theorem step_next_of_resets {s : State} (hreset : resets s) : ∃ t, step s = .next t := by
  rcases step_cases s with ⟨_, he⟩ | ⟨_, _, he⟩ | ⟨_, _, _, he⟩ | ⟨hr, hl, w, hp, _⟩
  · exact he ▸ hostStep_next _
  · exact he ▸ hostStep_next _
  · exact he ▸ hostStep_next _
  · have hnone : hostMoves s = none := by simp [hostMoves, hp, hr, hl]
    exact absurd hreset (not_resets_of_hostMoves_none hr hnone)

/-- A step in or into reset ends with CORE at its reset values. -/
theorem resetCore_eq_self_of_step {s t : State} (h : step s = .next t) (hreset : resets s) : resetCore t = t := by
  cases step_move s t h with
  | resetWait => rfl
  | resetHost _ op rest hr _ hm => exact hm.resetCore_eq_self_of_rst hr rfl
  | wait lat hr hh => exact absurd hreset (not_resets_of_hostMoves_none hr (hostMoves_eq_none_of_host_nil hh))
  | host _ lat op rest hr _ _ hop _ hm =>
    obtain rfl : op = .setRst true := by simpa [resets, hr, hop] using hreset
    exact hm.resetCore_eq_self_of_assert
  | completion w i hr _ _ _ _ hop => exact absurd hreset (not_resets_of_hostMoves_none hr hop)

/-- Settles O36: the step goes on to a state that `resetCore` leaves alone, whose fields are the reset values. -/
theorem resetStepClearsCore : Obligations.ResetStepClearsCore := by
  intro s hreset
  obtain ⟨t, ht⟩ := step_next_of_resets hreset
  have hself := resetCore_eq_self_of_step ht hreset
  have hirq : irq t = false := hself ▸ irq_resetCore t
  obtain ⟨hieDone, hieErr, hphase, hdone, hovf, herr, hkeyMask, hdataMask, hkey, hdata, hskhi, hsklo, _⟩ :=
    (resetCore_eq_self_iff t).mp hself
  exact ⟨t, ht, hphase, hdone, hovf, herr, hkeyMask, hdataMask, hkey, hdata, hskhi, hsklo, hieDone, hieErr, hirq⟩

end Sys2Proof.Machine
end

section
/-! The encoding (30_encoding.md R81 to R89): a word packs its fields and nothing else, so decoding, the match/mask rows,
the operands and the assembler's words are all read off the fields. -/

namespace Sys2Proof

/-! ## Decoding an encoding -/

theorem strict_of_fields {w : Word} (h31 : fieldReserved31 w = 0#18) (h11 : fieldReserved11 w = 0#1) (i : Instr) :
    strict w false i = .ok i :=
  (strict_eq_ok_iff w false i i).mpr ⟨h31, h11, rfl, rfl⟩

theorem strictPlain_packWord (op : BitVec 4) (i : Instr) :
    strictPlain (packWord op 0#4 0#2 0#1 0#2) i = .ok i := by
  obtain ⟨-, hridx, hfn, hinv, hlane, h11, h31⟩ := fields_packWord op 0#4 0#2 0#1 0#2
  simpa [strictPlain, hridx, hfn, hinv, hlane] using strict_of_fields h31 h11 i

theorem strictRound_packWord (op ridx : BitVec 4) (i : Instr) :
    strictRound (packWord op ridx 0#2 0#1 0#2) i = .ok i := by
  obtain ⟨-, -, hfn, hinv, hlane, h11, h31⟩ := fields_packWord op ridx 0#2 0#1 0#2
  simpa [strictRound, hfn, hinv, hlane] using strict_of_fields h31 h11 i

/-- The decoder undoes the encoder: the packed fields come back, and each row's check finds the bits it forbids 0
(30_encoding.md R81, R85). -/
theorem decode_encode (i : Instr) : decode (encode i) = .ok i := by
  have hround (op : BitVec 4) (r : RoundIdx) :
      fieldOp (packWord op (BitVec.ofFin r) 0#2 0#1 0#2) = op ∧
        roundOfField (fieldRidx (packWord op (BitVec.ofFin r) 0#2 0#1 0#2)) = r := by
    obtain ⟨hop, hridx, -⟩ := fields_packWord op (BitVec.ofFin r) 0#2 0#1 0#2
    exact ⟨hop, by rw [hridx]; rfl⟩
  have hlane (inv : BitVec 1) (fn : LaneFn) (k : LaneIdx) (r : RoundIdx) (j : Instr) :
      strict (packWord 6#4 (BitVec.ofFin r) fn.field inv (BitVec.ofFin k)) false j = .ok j := by
    obtain ⟨-, -, -, -, -, h11, h31⟩ := fields_packWord 6#4 (BitVec.ofFin r) fn.field inv (BitVec.ofFin k)
    exact strict_of_fields h31 h11 j
  cases i with
  | nop | enc | dec | clear => exact strictPlain_packWord _ _
  | encr r | decr r | subkey r =>
    simp [encode, decode, hround, strictRound_packWord]
  | lanef fn k r | lanefi fn k r =>
    simp [encode, decode, fields_packWord, hlane, fnOfField_of_field, roundOfField, laneOfField]

/-- Settles O1: well-formed or not, `decode_encode`. -/
theorem decodeOfEncodeIsInstruction : Obligations.DecodeOfEncodeIsInstruction := fun i _ => decode_encode i

/-- Settles O2: the encoder undoes the decoder, which the CMD write needed already. -/
theorem encodeOfDecodeIsWord : Obligations.EncodeOfDecodeIsWord := fun _ _ h => encode_of_decode h

/-- Decoding and encoding are inverse: a word decodes to an instruction exactly when it is its encoding. -/
theorem decode_eq_ok_iff (w : Word) (i : Instr) : decode w = .ok i ↔ w = encode i :=
  ⟨fun h => (encode_of_decode h).symm, fun h => h ▸ decode_encode i⟩

/-! ## The match/mask rows -/

/-- A word packs given fields exactly when they are its fields and its reserved bits are 0. -/
theorem eq_packWord_iff (w : Word) (op ridx : BitVec 4) (fn : BitVec 2) (inv : BitVec 1) (lane : BitVec 2) :
    w = packWord op ridx fn inv lane ↔ fieldOp w = op ∧ fieldRidx w = ridx ∧ fieldFn w = fn ∧ fieldInv w = inv ∧
      fieldLane w = lane ∧ fieldReserved11 w = 0#1 ∧ fieldReserved31 w = 0#18 := by
  constructor
  · rintro rfl
    exact fields_packWord op ridx fn inv lane
  · rintro ⟨rfl, rfl, rfl, rfl, rfl, h11, h31⟩
    exact (packWord_fields w h31 h11).symm

/-- A mask acts on each field of a word by its own field. -/
theorem fields_and (w mask : Word) :
    fieldOp (w &&& mask) = fieldOp w &&& fieldOp mask ∧ fieldRidx (w &&& mask) = fieldRidx w &&& fieldRidx mask ∧
      fieldFn (w &&& mask) = fieldFn w &&& fieldFn mask ∧ fieldInv (w &&& mask) = fieldInv w &&& fieldInv mask ∧
      fieldLane (w &&& mask) = fieldLane w &&& fieldLane mask ∧
      fieldReserved11 (w &&& mask) = fieldReserved11 w &&& fieldReserved11 mask ∧
      fieldReserved31 (w &&& mask) = fieldReserved31 w &&& fieldReserved31 mask := by
  simp only [fieldOp, fieldRidx, fieldFn, fieldInv, fieldLane, fieldReserved11, fieldReserved31,
    BitVec.extractLsb'_and, and_self]

section

variable (w : Word)

/-- A mask of all ones selects one word. -/
theorem decode_eq_plain_iff (i : Instr) : decode w = .ok i ↔ w &&& 0xFFFFFFFF#32 = encode i := by
  rw [decode_eq_ok_iff, show w &&& 0xFFFFFFFF#32 = w from BitVec.and_allOnes]

/-- The row of a command with a round alone: the mask leaves RIDX free and holds the other fields. -/
theorem exists_packRound_iff (op : BitVec 4) :
    (∃ r : RoundIdx, w = packWord op (BitVec.ofFin r) 0#2 0#1 0#2) ↔
      w &&& 0xFFFFFF0F#32 = packWord op 0#4 0#2 0#1 0#2 := by
  have hridx : ∃ r : RoundIdx, fieldRidx w = BitVec.ofFin r := ⟨(fieldRidx w).toFin, rfl⟩
  have hmask : fieldOp 0xFFFFFF0F#32 = BitVec.allOnes 4 ∧ fieldRidx 0xFFFFFF0F#32 = 0#4 ∧
      fieldFn 0xFFFFFF0F#32 = BitVec.allOnes 2 ∧ fieldInv 0xFFFFFF0F#32 = BitVec.allOnes 1 ∧
      fieldLane 0xFFFFFF0F#32 = BitVec.allOnes 2 ∧ fieldReserved11 0xFFFFFF0F#32 = BitVec.allOnes 1 ∧
      fieldReserved31 0xFFFFFF0F#32 = BitVec.allOnes 18 := by decide
  simp only [eq_packWord_iff, fields_and, hmask, BitVec.and_allOnes, BitVec.and_zero,
    exists_and_left, exists_and_right, hridx, true_and]

/-- The row of a lane command: the mask leaves RIDX, FN and LANE free and holds INV with the rest. -/
theorem exists_packLane_iff (inv : BitVec 1) :
    (∃ (fn : LaneFn) (k : LaneIdx) (r : RoundIdx),
        w = packWord 6#4 (BitVec.ofFin r) fn.field inv (BitVec.ofFin k)) ↔
      w &&& 0xFFFFCC0F#32 = packWord 6#4 0#4 0#2 inv 0#2 := by
  have hfn : ∃ fn : LaneFn, fieldFn w = fn.field := ⟨fnOfField (fieldFn w), (fnOfField_field _).symm⟩
  have hlane : ∃ k : LaneIdx, fieldLane w = BitVec.ofFin k := ⟨(fieldLane w).toFin, rfl⟩
  have hridx : ∃ r : RoundIdx, fieldRidx w = BitVec.ofFin r := ⟨(fieldRidx w).toFin, rfl⟩
  have hmask : fieldOp 0xFFFFCC0F#32 = BitVec.allOnes 4 ∧ fieldRidx 0xFFFFCC0F#32 = 0#4 ∧
      fieldFn 0xFFFFCC0F#32 = 0#2 ∧ fieldInv 0xFFFFCC0F#32 = BitVec.allOnes 1 ∧
      fieldLane 0xFFFFCC0F#32 = 0#2 ∧ fieldReserved11 0xFFFFCC0F#32 = BitVec.allOnes 1 ∧
      fieldReserved31 0xFFFFCC0F#32 = BitVec.allOnes 18 := by decide
  simp only [eq_packWord_iff, fields_and, hmask, BitVec.and_allOnes, BitVec.and_zero,
    exists_and_left, exists_and_right, hfn, hlane, hridx, true_and]

/-- Settles O3: decoding to a row's command is packing its fields, and the row's mask keeps exactly the fields that are
no operand of it. -/
theorem decodeFollowsMatchMask : Obligations.DecodeFollowsMatchMask := by
  intro w
  refine ⟨decode_eq_plain_iff w .nop, decode_eq_plain_iff w .enc, decode_eq_plain_iff w .dec, ?_, ?_, ?_, ?_, ?_,
    decode_eq_plain_iff w .clear⟩
  all_goals simp only [decode_eq_ok_iff, encode]
  · exact exists_packRound_iff w 3#4
  · exact exists_packRound_iff w 4#4
  · exact exists_packRound_iff w 5#4
  · exact exists_packLane_iff w 0#1
  · exact exists_packLane_iff w 1#1

end

/-- Settles O6: each word is its command's encoding, which decodes to it. -/
theorem wordsOfTheSpecDecode : Obligations.WordsOfTheSpecDecode :=
  ⟨decode_encode .nop, decode_encode .enc, decode_encode .dec, decode_encode (.encr 15), decode_encode (.decr 15),
    decode_encode (.subkey 4), decode_encode (.lanef .f3 2 0), decode_encode (.lanefi .f1 0 8), decode_encode .clear⟩

/-! ## The operands -/

/-- The operands of a word packed with a round (30_encoding.md R83). -/
theorem round_of_packWord (op : BitVec 4) (r : RoundIdx) (fn : BitVec 2) (inv : BitVec 1) (lane : BitVec 2) :
    r.number = (packWord op (BitVec.ofFin r) fn inv lane).toNat / 16 % 16 + 1 := by
  have hop := op.isLt
  have hridx : (BitVec.ofFin (w := 4) r).toNat = r.val := rfl
  rw [packWord_toNat, hridx, RoundIdx.number]
  omega

/-- The lane and the function of a packed word (30_encoding.md R84). -/
theorem lane_fn_of_packWord (op ridx : BitVec 4) (fn : LaneFn) (inv : BitVec 1) (k : LaneIdx) :
    k.val = (packWord op ridx fn.field inv (BitVec.ofFin k)).toNat / 4096 % 4 ∧
      fn.field.toNat = (packWord op ridx fn.field inv (BitVec.ofFin k)).toNat / 256 % 4 := by
  have hop := op.isLt
  have hridx := ridx.isLt
  have hfn := fn.field.isLt
  have hinv := inv.isLt
  have hlane : (BitVec.ofFin (w := 2) k).toNat = k.val := rfl
  rw [packWord_toNat, hlane]
  omega

/-- Settles O4: the decoded word is the encoding, and `packWord_toNat` gives its fields as quotients. -/
theorem operandsComeFromTheirFields : Obligations.OperandsComeFromTheirFields := by
  refine ⟨fun w r h => ?_, fun w fn k r h => ?_⟩
  · simp only [decode_eq_ok_iff] at h
    rcases h with rfl | rfl | rfl <;> exact round_of_packWord ..
  · simp only [decode_eq_ok_iff] at h
    have hfields : r.number = w.toNat / 16 % 16 + 1 ∧ k.val = w.toNat / 4096 % 4 ∧
        fn.field.toNat = w.toNat / 256 % 4 := by
      rcases h with rfl | rfl <;> exact ⟨round_of_packWord .., lane_fn_of_packWord ..⟩
    obtain ⟨hr, hk, hfn⟩ := hfields
    refine ⟨hr, hk, ?_⟩
    rw [← hfn]
    cases fn <;> rfl

end Sys2Proof

namespace Sys2Proof.Machine

/-! ## The assembler -/

/-- The word of a command with a round, as its match with the round put in place (30_encoding.md R89). -/
theorem packWord_round_eq_or (op : BitVec 4) (r : RoundIdx) :
    packWord op (BitVec.ofFin r) 0#2 0#1 0#2 = op.setWidth 32 ||| (BitVec.ofNat 32 r.val <<< 4) := by
  have hridx : (BitVec.ofFin (w := 4) r).setWidth 32 = BitVec.ofNat 32 r.val := (BitVec.ofNat_toNat ..).symm
  simp [packWord, hridx]

theorem or_fourth_to_second (a b c d : Word) : a ||| b ||| c ||| d = a ||| d ||| b ||| c := by ac_rfl

/-- The word of a lane command, as its match with the operands put in place (30_encoding.md R89). -/
theorem packWord_lane_eq_or (fn : LaneFn) (inv : BitVec 1) (k : LaneIdx) (r : RoundIdx) :
    packWord 6#4 (BitVec.ofFin r) fn.field inv (BitVec.ofFin k) =
      (6#32 ||| inv.setWidth 32 <<< 10) ||| (BitVec.ofNat 32 r.val <<< 4) ||| (fn.field.setWidth 32 <<< 8) |||
        (BitVec.ofNat 32 k.val <<< 12) := by
  have hridx : (BitVec.ofFin (w := 4) r).setWidth 32 = BitVec.ofNat 32 r.val := (BitVec.ofNat_toNat ..).symm
  have hlane : (BitVec.ofFin (w := 2) k).setWidth 32 = BitVec.ofNat 32 k.val := (BitVec.ofNat_toNat ..).symm
  rw [packWord, hridx, hlane]
  exact congrArg (· ||| _) (or_fourth_to_second ..)

/-- The number an assembler writes for a function: n of Fn (30_encoding.md R89). -/
def fnNumber (fn : LaneFn) : Nat := fn.field.toNat + 1

theorem exists_round_number {r : Nat} (h : 1 ≤ r ∧ r ≤ 16) : ∃ j : RoundIdx, r = j.number :=
  ⟨⟨r - 1, by omega⟩, by simp only [RoundIdx.number]; omega⟩

theorem exists_fnNumber {n : Nat} (h : 1 ≤ n ∧ n ≤ 4) : ∃ fn : LaneFn, n = fnNumber fn := by
  obtain ⟨hlo, hhi⟩ := h
  interval_cases n
  · exact ⟨.f1, rfl⟩
  · exact ⟨.f2, rfl⟩
  · exact ⟨.f3, rfl⟩
  · exact ⟨.f4, rfl⟩

theorem ofNat_number_sub_one (r : RoundIdx) : Fin.ofNat 16 (r.number - 1) = r := by simp [RoundIdx.number]

/-- The operands as an assembler writes them give the instruction back: the numbers of r and n count from 1, that of k
from 0 (30_encoding.md R83, R84, R89). -/
theorem assembleCmd_round (r : RoundIdx) :
    assembleCmd (.encr r.number) = some (.encr r) ∧ assembleCmd (.decr r.number) = some (.decr r) ∧
      assembleCmd (.subkey r.number) = some (.subkey r) := by
  simp [assembleCmd, AsmCmd.wellFormed, Laws.round_number_range, ofNat_number_sub_one, -Fin.ofNat_eq_cast]

theorem assembleCmd_lane (fn : LaneFn) (k : LaneIdx) (r : RoundIdx) :
    assembleCmd (.lanef (fnNumber fn) k.val r.number) = some (.lanef fn k r) ∧
      assembleCmd (.lanefi (fnNumber fn) k.val r.number) = some (.lanefi fn k r) := by
  have hk : k.val ≤ 3 := Nat.le_of_lt_succ k.isLt
  cases fn <;>
    simp [assembleCmd, AsmCmd.wellFormed, Laws.round_number_range, ofNat_number_sub_one, -Fin.ofNat_eq_cast, fnInRange,
      laneInRange, fnNumber, LaneFn.field, hk]

theorem assembleCmd_of_not_wellFormed (c : AsmCmd) (h : c.wellFormed = false) : assembleCmd c = none := by
  simp [assembleCmd, h]

/-- Settles O60: operands in range are those of an instruction, whose word `packWord` gives; the others fail the check. -/
theorem assemblerGivesTableWords : Obligations.AssemblerGivesTableWords := by
  refine ⟨rfl, rfl, rfl, rfl, fun r => ?_, fun n k r => ?_⟩
  · by_cases hr : 1 ≤ r ∧ r ≤ 16
    · obtain ⟨j, rfl⟩ := exists_round_number hr
      simp only [assembleCmd_round, if_pos hr, Option.map_some, encode, packWord_round_eq_or]
      exact ⟨rfl, rfl, rfl⟩
    · have hrange : roundInRange r = false := by simpa [roundInRange] using hr
      rw [if_neg hr, if_neg hr, if_neg hr, assembleCmd_of_not_wellFormed (.encr r) hrange,
        assembleCmd_of_not_wellFormed (.decr r) hrange, assembleCmd_of_not_wellFormed (.subkey r) hrange]
      exact ⟨rfl, rfl, rfl⟩
  · by_cases h : 1 ≤ r ∧ r ≤ 16 ∧ 1 ≤ n ∧ n ≤ 4 ∧ k ≤ 3
    · rw [if_pos h, if_pos h]
      obtain ⟨hr1, hr2, hn1, hn2, hk⟩ := h
      obtain ⟨j, rfl⟩ := exists_round_number ⟨hr1, hr2⟩
      obtain ⟨fn, rfl⟩ := exists_fnNumber ⟨hn1, hn2⟩
      obtain ⟨i, rfl⟩ : ∃ i : LaneIdx, k = i.val := ⟨⟨k, Nat.lt_succ_of_le hk⟩, rfl⟩
      have hfn : fn.field.setWidth 32 = BitVec.ofNat 32 (fnNumber fn - 1) := by cases fn <;> rfl
      simp only [assembleCmd_lane, Option.map_some, encode, packWord_lane_eq_or, hfn]
      exact ⟨rfl, rfl⟩
    · have hrange : (fnInRange n && laneInRange k && roundInRange r) = false := by
        simp only [fnInRange, laneInRange, roundInRange, Bool.and_eq_false_iff, decide_eq_false_iff_not]
        omega
      rw [if_neg h, if_neg h, assembleCmd_of_not_wellFormed (.lanef n k r) hrange,
        assembleCmd_of_not_wellFormed (.lanefi n k r) hrange]
      exact ⟨rfl, rfl⟩

end Sys2Proof.Machine
end

section
/-! The completions (43_control_commands.md R191): the state in which each command leaves CORE, and what the effects of
SUBKEY, LANEF and LANEFI compute. -/

namespace Sys2Proof.Machine

/-- A busy CORE that runs a command completes it. -/
theorem exec_of_busy {s : State} {w : Word} (hp : s.phase = .busy w) (i : Instr) :
    exec i s = .next (complete (effectOf Config.cfg i) s) := by
  rw [exec_eq_command, command, hp]

/-- Settles O7: NOP's effect is none. -/
theorem nopCompletes : Obligations.NopCompletes := fun _ _ hp => exec_of_busy hp .nop

/-- Settles O8: `clearEffect` writes the six fields, and the completion the other two. -/
theorem clearZeroises : Obligations.ClearZeroises := fun _ _ hp => exec_of_busy hp .clear

/-- Settles O9: `encEffect` and `decEffect` write the block and its mask. -/
theorem blockCommandsComplete : Obligations.BlockCommandsComplete := fun _ _ hp =>
  ⟨exec_of_busy hp .enc, exec_of_busy hp .dec⟩

/-- Settles O10: `encrEffect` and `decrEffect` write the block alone. -/
theorem roundCommandsComplete : Obligations.RoundCommandsComplete := by
  intro s w r hp
  rw [exec_of_busy hp, exec_of_busy hp]
  simp only [complete, effectOf, encrEffect, decrEffect, and_self]

/-! ## SUBKEY -/

theorem rotOf_lt (sk : Subkey) : rotOf sk < 32 := Nat.mod_lt _ (by decide)

/-- A lane word is the big-endian number of its bytes (20_memory.md R61). -/
theorem be32_toNat (l : Lane) : (be32 l).toNat = be l.toList := by
  have hbytes : be [l[0], l[1], l[2], l[3]] =
      ((l[0].toNat * 256 + l[1].toNat) * 256 + l[2].toNat) * 256 + l[3].toNat := by simp [be]
  calc (be32 l).toNat
      = be [l[0], l[1], l[2], l[3]] := by
        rw [hbytes, be32]
        simp only [toNat_append_eq_add]
        omega
    _ = be l.toList := congrArg (fun m : Lane => be m.toList) (lane_eq_mk l)

/-- SKHI as the number its three fields make (40_key_schedule.md R106). -/
theorem skhiOf_toNat (r : RoundIdx) (sk : Subkey) :
    (skhiOf r sk).toNat = r.val * 2 ^ 16 + rotOf sk * 2 ^ 8 + sk[0].toNat := by
  have hrot := rotOf_lt sk
  have hridx : (BitVec.ofFin (w := 4) r).toNat = r.val := rfl
  have hsk := sk[0].isLt
  rw [skhiOf, BitVec.toNat_setWidth]
  simp only [toNat_append_eq_add, hridx, BitVec.toNat_ofNat]
  omega

/-- Bytes 1 to 4 of a subkey, as SKLO lists them. -/
theorem drop_one_toList (sk : Subkey) : sk.toList.drop 1 = (#v[sk[1], sk[2], sk[3], sk[4]] : Lane).toList := by
  apply List.ext_getElem
  · simp
  · intro i hi _
    rw [List.length_drop, Vector.length_toList] at hi
    match i, hi with
    | 0, _ | 1, _ | 2, _ | 3, _ => simp

/-- Settles O11: SKHI and SKLO are those of `subkeyEffect`, read as numbers. -/
theorem subkeyCommandCompletes : Obligations.SubkeyCommandCompletes := by
  intro s w r hp
  refine ⟨_, _, exec_of_busy hp (.subkey r), skhiOf_toNat r _, ?_⟩
  rw [drop_one_toList]
  exact be32_toNat _

/-! ## LANEF and LANEFI -/

/-- The bytes outside a written lane stay as they were. -/
theorem setLane_getElem_of_ne (b : Block) {k : LaneIdx} (l : Lane) {i : Fin 16} (hi : i.val / 4 ≠ k.val) :
    (setLane b k l)[i] = b[i] :=
  (setLane_getElem b k l i.val i.isLt).trans (if_neg hi)

theorem complete_lanef (c : Cfg) (fn : LaneFn) (k : LaneIdx) (r : RoundIdx) (s : State) :
    complete (effectOf c (.lanef fn k r)) s = { s with
      data := setLane s.data k (fwd c fn (laneOf s.data k) (subkeyOf c s.key r)), phase := .idle, done := true } := by
  simp only [complete, effectOf, lanefEffect]

theorem complete_lanefi (c : Cfg) (fn : LaneFn) (k : LaneIdx) (r : RoundIdx) (s : State) :
    complete (effectOf c (.lanefi fn k r)) s = { s with
      data := setLane s.data k (invf c fn (laneOf s.data k) (subkeyOf c s.key r)), phase := .idle, done := true } := by
  simp only [complete, effectOf, lanefiEffect]

/-- Settles O12: both effects are one `setLane` of the block. -/
theorem laneCommandsComplete : Obligations.LaneCommandsComplete := by
  intro s w fn k r hp
  refine ⟨⟨setLane s.data k (fwd Config.cfg fn (laneOf s.data k) (subkeyOf Config.cfg s.key r)),
    by rw [exec_of_busy hp, complete_lanef], laneOf_setLane_same .., fun i hi => ?_⟩,
    ⟨setLane s.data k (invf Config.cfg fn (laneOf s.data k) (subkeyOf Config.cfg s.key r)),
    by rw [exec_of_busy hp, complete_lanefi], laneOf_setLane_same .., fun i hi => ?_⟩⟩
  · exact setLane_getElem_of_ne s.data _ hi
  · exact setLane_getElem_of_ne s.data _ hi

/-- Settles O47: the second effect finds the lane the first wrote, and the key that the first left. -/
theorem lanefiUndoesLanef : Obligations.LanefiUndoesLanef := by
  intro c fn k r s
  constructor
  · simp only [lanefiEffect, lanefEffect, laneOf_setLane_same, setLane_setLane, invf_fwd, setLane_laneOf]
  · simp only [lanefiEffect, lanefEffect, laneOf_setLane_same, setLane_setLane, fwd_invf, setLane_laneOf]

/-! ## PIN and POUT -/

theorem gatherBytes_getElem (p : Equiv.Perm (Fin 16)) (b : Block) (i : Fin 16) : (gatherBytes p b)[i] = b[p i] := by
  simp [gatherBytes]

/-- Settles O44: each layer gathers by its table, and gathering by the inverse table scatters. -/
theorem permutationsFollowTheirTables : Obligations.PermutationsFollowTheirTables := by
  intro c
  rw [pin_eq_gatherBits, pinInv_eq_gatherBits, pout_eq_gatherBytes, poutInv_eq_gatherBytes]
  refine ⟨fun l i => ⟨be32_gatherBits_getMsbD .., ?_⟩, fun b i => ⟨gatherBytes_getElem .., ?_⟩⟩
  · rw [be32_gatherBits_getMsbD, Equiv.symm_apply_apply]
  · rw [gatherBytes_getElem]
    simp only [Equiv.symm_apply_apply]

end Sys2Proof.Machine
end

section
/-! Building a CORE (00_scope.md R11): the configuration of well-formed tables, and that no other tables build one. -/

namespace Sys2Proof.Machine

/-- The configuration that well-formed tables list (10_state.md R21 to R24). -/
def cfgOfTables (t : CfgTables) (h : t.WF) : Cfg where
  s1 := permOfBytes t.s1 h.1
  s2 := permOfBytes t.s2 h.2.1
  s3 := permOfBytes t.s3 h.2.2.1
  s4 := permOfBytes t.s4 h.2.2.2.1
  pOuter := permOfPositions t.pOuter h.2.2.2.2.1
  pInner := permOfPositions t.pInner h.2.2.2.2.2.1
  rc j := t.rc[j.val]'(Nat.lt_of_lt_of_eq j.isLt h.2.2.2.2.2.2.symm)

theorem buildCfg_of_wf {t : CfgTables} (h : t.WF) : buildCfg t = .ok (cfgOfTables t h) := by
  obtain ⟨h1, h2, h3, h4, hO, hI, hR⟩ := h
  rw [buildCfg, dif_pos h1, dif_pos h2, dif_pos h3, dif_pos h4, dif_pos hO, dif_pos hI, dif_pos hR]
  rfl

/-- A check that passes or refuses: where the whole is accepted, the check has passed. -/
theorem of_dite_eq_ok {p : Prop} [Decidable p] {f : p → Except TableError Cfg} {e : TableError} {c : Cfg}
    (h : (if hp : p then f hp else .error e) = .ok c) : ∃ hp, f hp = .ok c := by
  split at h
  case isTrue hp => exact ⟨hp, h⟩
  case isFalse => cases h

theorem wf_of_buildCfg {t : CfgTables} {c : Cfg} (h : buildCfg t = .ok c) : t.WF := by
  obtain ⟨h1, h⟩ := of_dite_eq_ok h
  obtain ⟨h2, h⟩ := of_dite_eq_ok h
  obtain ⟨h3, h⟩ := of_dite_eq_ok h
  obtain ⟨h4, h⟩ := of_dite_eq_ok h
  obtain ⟨hO, h⟩ := of_dite_eq_ok h
  obtain ⟨hI, h⟩ := of_dite_eq_ok h
  obtain ⟨hR, -⟩ := of_dite_eq_ok h
  exact ⟨h1, h2, h3, h4, hO, hI, hR⟩

/-- The build accepts exactly the well-formed tables, and gives their configuration. -/
theorem buildCfg_eq_ok_iff (t : CfgTables) (c : Cfg) : buildCfg t = .ok c ↔ ∃ h : t.WF, cfgOfTables t h = c := by
  constructor
  · intro h
    have hwf := wf_of_buildCfg h
    rw [buildCfg_of_wf hwf] at h
    exact ⟨hwf, Except.ok.inj h⟩
  · rintro ⟨hwf, rfl⟩
    exact buildCfg_of_wf hwf

/-- Entry x of a substitution table is the image of x (10_state.md R21). -/
theorem getElem?_eq_permOfBytes {t : List Byte} (h : CfgTables.SBijective t) (x : Byte) :
    t[x.toNat]? = some (permOfBytes t h x) :=
  List.getElem?_eq_getElem _

/-- Entry i of a permutation table is the image of i, counted from 1 (10_state.md R22, R23). -/
theorem getElem?_eq_permOfPositions {n : Nat} {t : List Nat} (h : CfgTables.PermTable n t) (i : Fin n) :
    t[i.val]? = some ((permOfPositions t h i).val + 1) := by
  obtain ⟨hlen, _, hrange, _⟩ := h
  have hi : i.val < t.length := hlen ▸ i.isLt
  obtain ⟨hpos, _⟩ := hrange _ (List.getElem_mem hi)
  rw [List.getElem?_eq_getElem hi]
  exact congrArg some (Nat.sub_add_cancel hpos).symm

/-- Settles O59: the built configuration is `cfgOfTables`, whose functions are the tables' entries. -/
theorem buildAcceptsExactlyWellFormedTables : Obligations.BuildAcceptsExactlyWellFormedTables := by
  intro t
  simp only [buildCfg_eq_ok_iff]
  refine ⟨⟨fun ⟨_, h, _⟩ => h, fun h => ⟨_, h, rfl⟩⟩, ?_⟩
  rintro _ ⟨⟨h1, h2, h3, h4, hO, hI, hR⟩, rfl⟩
  exact ⟨fun x => ⟨getElem?_eq_permOfBytes h1 x, getElem?_eq_permOfBytes h2 x, getElem?_eq_permOfBytes h3 x,
    getElem?_eq_permOfBytes h4 x⟩, fun i => ⟨getElem?_eq_permOfPositions hO i, List.getElem?_eq_getElem _⟩,
    getElem?_eq_permOfPositions hI⟩

end Sys2Proof.Machine
end

section
/-! The life cycle (43_control_commands.md R190, R191; 70_reset_and_hazards.md R271, R275): what a step is in each phase,
what a running command holds, and its completion. -/

namespace Sys2Proof.Machine

/-! ## One step, phase by phase -/

section

variable {s : State} (hr : s.rst = false)
include hr

theorem step_of_idle (hp : s.phase = .idle) : step s = hostStep s := by simp [step, cycle, hr, hp]

theorem step_of_busy {w : Word} (hp : s.phase = .busy w) (hl : s.lat ≠ 0) :
    step s = hostStep { s with lat := s.lat - 1 } := by
  simp [step, cycle, hr, hp, hl]

theorem step_of_latency_zero {w : Word} {i : Instr} (hp : s.phase = .busy w) (hl : s.lat = 0) (hd : decode w = .ok i) :
    step s = exec i s := by
  simp [step, cycle, hr, hp, hl, completion, hd]

end

theorem hostStep_of_cons {s : State} {op : HostOp} {rest : List HostOp} (hh : s.host = op :: rest) :
    hostStep s = hostOp op { s with host := rest } := by
  simp [hostStep, hh]

/-- Settles O14: at the end of the latency the completion fires, and an idle CMD write is `issueWord`. -/
theorem stepRunsDecodedInstruction : Obligations.StepRunsDecodedInstruction := by
  refine ⟨fun s w i hr hp hl hd _ => step_of_latency_zero hr hp hl hd, fun s w i rest hr hp hh hd _ => ?_⟩
  calc step s
      = regWrite 3#6 w { s with host := rest } := by rw [step_of_idle hr hp, hostStep_of_cons hh]; rfl
    _ = issueWord w { s with host := rest } := regWrite_cmd (s := { s with host := rest }) hr w
    _ = exec i { s with host := rest } := by simp [issueWord, busyBit, hp, hd]

/-- Settles O15: a word of 32 bits is stored whole, with nothing left of its latency. -/
theorem fetchWordRunsNext : Obligations.FetchWordRunsNext := by
  intro s w i hd
  have hword : BitVec.ofNat 32 (w.toNat % 2 ^ 32) = w := by
    rw [Nat.mod_eq_of_lt w.isLt, BitVec.ofNat_toNat, BitVec.setWidth_eq]
  rw [State.withFetchWord, hword]
  exact step_of_latency_zero rfl rfl rfl hd

/-! ## WAIT -/

/-- BUSY is bit 0 of the STATUS view (10_state.md R29). -/
theorem statusWord_getLsbD_zero (s : State) : (statusWord s).getLsbD 0 = busyBit s := by
  rw [BitVec.getLsbD, Nat.testBit_zero, statusWord_toNat]
  cases busyBit s <;> simp <;> omega

/-- A poll of STATUS: the reading is recorded, and WAIT stays next exactly while CORE is busy (30_encoding.md R91). -/
theorem hostWait_eq {s : State} (hr : s.rst = false) : hostWait s = { s with
    host := if busyBit s then .wait :: s.host else s.host
    reads := { name := "s", idx := 2#6, value := statusWord s } :: s.reads } := by
  simp only [hostWait, hostRead, statusIndex, regRead_status hr, statusWord_getLsbD_zero]
  cases busyBit s <;> rfl

/-- Settles O19: `hostWait_eq`, from an idle CORE and from a busy one with latency left. -/
theorem waitRepeatsWhileBusy : Obligations.WaitRepeatsWhileBusy := by
  intro s rest hr hh
  constructor
  · intro hp
    refine ⟨hostWait { s with host := rest }, (step_of_idle hr hp).trans (hostStep_of_cons hh), ?_, ?_⟩
    · simp [hostWait_eq, hr, busyBit, hp]
    · simp [hostWait_eq, hr, statusWord, busyBit]
  · intro w hp hl
    refine ⟨hostWait { s with lat := s.lat - 1, host := rest },
      (step_of_busy hr hp hl).trans (hostStep_of_cons (s := { s with lat := s.lat - 1 }) hh), ?_, ?_⟩
    · simp [hostWait_eq, hr, busyBit, hp]
    · simp [hostWait_eq, hr, statusWord, busyBit]

/-! ## What a running command holds -/

/-- Two states whose KEY, DATA, masks, SKHI and SKLO are the same: what a completion reads and writes. -/
structure SameOperands (s t : State) : Prop where
  key : t.key = s.key
  data : t.data = s.data
  keyMask : t.keyMask = s.keyMask
  dataMask : t.dataMask = s.dataMask
  skhi : t.skhi = s.skhi
  sklo : t.sklo = s.sklo

theorem SameOperands.refl (s : State) : SameOperands s s := ⟨rfl, rfl, rfl, rfl, rfl, rfl⟩

theorem SameOperands.trans {s t u : State} (h : SameOperands s t) (g : SameOperands t u) : SameOperands s u :=
  ⟨g.key.trans h.key, g.data.trans h.data, g.keyMask.trans h.keyMask, g.dataMask.trans h.dataMask,
    g.skhi.trans h.skhi, g.sklo.trans h.sklo⟩

/-- An effect is a function of the operands (43_control_commands.md R191). -/
theorem SameOperands.effectOf (c : Cfg) (i : Instr) {s t : State} (h : SameOperands s t) :
    SameOperands (effectOf c i s) (effectOf c i t) := by
  obtain ⟨hkey, hdata, hkeyMask, hdataMask, hskhi, hsklo⟩ := h
  cases i <;> constructor <;> simp [Machine.effectOf, hkey, hdata, hkeyMask, hdataMask, hskhi, hsklo]

/-- The host's move while a command runs: unless it asserts RST, the word and the operands stay (10_state.md R41). -/
theorem HostMove.held_of_busy {s t : State} {op : HostOp} (hm : HostMove s op t) (hr : s.rst = false) {w : Word}
    (hp : s.phase = .busy w) (hop : op ≠ .setRst true) :
    t.phase = .busy w ∧ t.lat = s.lat ∧ t.rst = false ∧ SameOperands s t := by
  cases hm with
  | quiet _ _ hc =>
    exact ⟨hc.phase.trans hp, hc.lat, hc.rst.trans hr, hc.key, hc.data, hc.keyMask, hc.dataMask, hc.skhi, hc.sklo⟩
  | error => exact ⟨by simpa using hp, by simp, by simpa using hr, by constructor <;> simp⟩
  | ctrl => exact ⟨hp, rfl, hr, by constructor <;> rfl⟩
  | status => exact ⟨hp, rfl, hr, by constructor <;> rfl⟩
  | key _ _ _ hidle | data _ _ _ hidle | accepted _ _ _ hidle => simp [hp] at hidle
  | rst level =>
    cases level with
    | true => exact absurd rfl hop
    | false => exact ⟨hp, rfl, rfl, by constructor <;> rfl⟩

/-- A step of a running command: it holds its word and operands and comes a cycle nearer (20_memory.md R73). -/
theorem held_of_step {s t : State} {w : Word} (hr : s.rst = false) (hp : s.phase = .busy w) (hl : s.lat ≠ 0)
    (hop : hostMoves s ≠ some (.setRst true)) (h : step s = .next t) :
    t.phase = .busy w ∧ t.lat = s.lat - 1 ∧ t.rst = false ∧ SameOperands s t := by
  have hlat {lat : Nat} (hcases : (s.phase = .idle ∧ lat = s.lat) ∨ ((∃ w, s.phase = .busy w) ∧ s.lat = lat + 1)) :
      lat = s.lat - 1 := by
    rcases hcases with ⟨hidle, _⟩ | ⟨_, hsucc⟩
    · simp [hp] at hidle
    · omega
  cases step_move s t h with
  | resetWait hhigh | resetHost _ _ _ hhigh => simp [hr] at hhigh
  | wait lat _ _ _ hcases => exact ⟨hp, hlat hcases, hr, by constructor <;> rfl⟩
  | host _ lat op rest _ _ _ hmoves hcases hm =>
    obtain ⟨hphase, hlat', hrst, hsame⟩ := hm.held_of_busy hr hp (fun he => hop (he ▸ hmoves))
    exact ⟨hphase, hlat'.trans (hlat hcases), hrst, (show SameOperands s _ by constructor <;> rfl).trans hsame⟩
  | completion _ _ _ _ hzero => exact absurd hzero hl

/-- Settles O16: `held_of_step`. -/
theorem busyHoldsItsOperands : Obligations.BusyHoldsItsOperands := by
  intro s t w hr hp hl hop h
  obtain ⟨hphase, hlat, hrst, hsame⟩ := held_of_step hr hp hl hop h
  exact ⟨hphase, hlat, hrst, hsame.key, hsame.data, hsame.keyMask, hsame.dataMask, hsame.skhi, hsame.sklo⟩

/-! ## Completion after the latency -/

/-- A write leaves the host's list alone. -/
theorem host_of_regWrite {idx : RegIndex} {w : Word} {s t : State} (h : regWrite idx w s = .next t) :
    t.host = s.host := by
  cases regWrite_move idx w s t h with
  | quiet _ _ _ hwr =>
    rw [regWrite, if_pos (hwr idx w rfl)] at h
    cases h
    rfl
  | error => simp
  | ctrl | status | key | data | accepted => rfl

theorem hostRead_host (idx : RegIndex) (name : String) (s : State) : (hostRead idx name s).host = s.host := by
  obtain ⟨v, n, hread⟩ := regRead_eq_with_draws idx s
  rw [hostRead, hread]

/-- What an operation leaves to be performed was there before it: WAIT, and waiting for IRQ, at most repeat themselves
(30_encoding.md R91), and a failing check drops operations (44_host_driver.md R207). -/
theorem mem_host_of_hostOp {op o : HostOp} {s t : State} (h : hostOp op s = .next t) (ho : o ∈ t.host) :
    o = op ∨ o ∈ s.host := by
  cases op with
  | wr => exact .inr (host_of_regWrite h ▸ ho)
  | rd idx name =>
    cases h
    exact .inr (hostRead_host idx name s ▸ ho)
  | wait =>
    cases h
    unfold hostWait at ho
    split at ho
    · exact List.mem_cons.mp ho
    · exact .inr (hostRead_host _ _ s ▸ ho)
  | waitIrq =>
    cases h
    unfold hostWaitIrq at ho
    split at ho
    · exact .inr ho
    · exact List.mem_cons.mp ho
  | check =>
    cases h
    rcases hostCheck_cases s with hc | ⟨_, _, _, hc⟩ <;> rw [hc] at ho
    · exact .inr ho
    · exact .inr ((List.dropWhile_sublist _).mem ho)
  | callEnter | callLeave =>
    cases h
    exact .inr ho
  | setRst level =>
    cases h
    cases level <;> exact .inr ho

/-- No effect of a command reaches the host's list. -/
theorem effectOf_host (c : Cfg) (i : Instr) (s : State) : (effectOf c i s).host = s.host := by
  rw [effectOf_frame]

/-- No step adds an operation to those the host has still to perform. -/
theorem mem_host_of_step {o : HostOp} {s t : State} (h : step s = .next t) (ho : o ∈ t.host) : o ∈ s.host := by
  have hturn {u : State} (h : hostStep u = .next t) (hu : u.host = s.host) : o ∈ s.host := by
    unfold hostStep at h
    split at h
    · cases h
      exact hu ▸ ho
    · rename_i op rest heq
      rw [← hu, heq, List.mem_cons]
      exact mem_host_of_hostOp h ho
  rcases step_cases s with ⟨_, he⟩ | ⟨_, _, he⟩ | ⟨_, _, _, he⟩ | ⟨hr, hl, w, hp, he⟩
  · exact hturn (he.symm.trans h) rfl
  · exact hturn (he.symm.trans h) rfl
  · exact hturn (he.symm.trans h) rfl
  · cases step_move s t h with
    | completion _ i => exact effectOf_host Config.cfg i s ▸ ho
    | resetWait hhigh | resetHost _ _ _ hhigh => simp [hr] at hhigh
    | wait _ _ hh => exact ho
    | host _ lat _ _ _ _ _ hop => simp [hostMoves, hp, hr, hl] at hop

/-- A run of one step more takes that step first. -/
theorem run_succ {m : Host.Core} (n : Nat) {s t : m.State} (h : m.step s = .next t) :
    m.run (n + 1) s = m.run n t := by
  rw [Host.Core.run, h]

/-- By induction on the latency: each step keeps the word and the operands and is one cycle nearer, and the last one
completes. -/
theorem run_latency (n : Nat) {s : State} {w : Word} {i : Instr} (hr : s.rst = false) (hp : s.phase = .busy w)
    (hl : s.lat = n) (hd : decode w = .ok i) (hhost : ∀ op ∈ s.host, op ≠ .setRst true) :
    ∃ u, Host.Core.run core (n + 1) s = .next (complete (effectOf Config.cfg i) u) ∧ SameOperands s u := by
  induction n generalizing s with
  | zero =>
    have hstep := (step_of_latency_zero hr hp hl hd).trans (exec_of_busy hp i)
    exact ⟨s, run_succ 0 hstep, .refl s⟩
  | succ n ih =>
    have hne : s.lat ≠ 0 := by omega
    obtain ⟨t, ht⟩ := hostStep_next { s with lat := s.lat - 1 }
    have hstep : step s = .next t := (step_of_busy hr hp hne).trans ht
    have hop : hostMoves s ≠ some (.setRst true) := by
      simp only [hostMoves, hp, hne, and_false, if_false]
      exact fun he => hhost _ (List.mem_of_mem_head? he) rfl
    obtain ⟨hphase, hlat, hrst, hsame⟩ := held_of_step hr hp hne hop hstep
    obtain ⟨u, hrun, hu⟩ := ih hrst hphase (by omega) fun op hmem => hhost op (mem_host_of_step hstep hmem)
    exact ⟨u, (run_succ _ hstep).trans hrun, hsame.trans hu⟩

/-- Settles O17: the state that completes has the operands of the first one, and the effect is a function of them. -/
theorem acceptedCommandCompletes : Obligations.AcceptedCommandCompletes := by
  intro s w i hr hp hd hhost
  obtain ⟨u, hrun, hsame⟩ := run_latency s.lat hr hp rfl hd hhost
  obtain ⟨hkey, hdata, hkeyMask, hdataMask, hskhi, hsklo⟩ := hsame.effectOf Config.cfg i
  exact ⟨_, _, hrun, exec_of_busy hp i, rfl, rfl, hkey, hdata, hkeyMask, hdataMask, hskhi, hsklo⟩

/-! ## Busy or done -/

/-- The host's move leaves an accepted command busy or done, unless it clears DONE or asserts RST
(70_reset_and_hazards.md R271). -/
theorem HostMove.busy_or_done {s t : State} {op : HostOp} (hm : HostMove s op t) (hs : s.phase ≠ .idle ∨ s.done = true)
    (hop : op ≠ .setRst true) (hack : ∀ w, op = .wr 2#6 w → w.getLsbD 1 = false) :
    t.phase ≠ .idle ∨ t.done = true := by
  cases hm with
  | quiet _ _ hc => rwa [hc.phase, hc.done]
  | error => simpa using hs
  | status w => simpa only [acknowledge_phase, acknowledge_done, hack w rfl, Bool.false_eq_true, if_false] using hs
  | ctrl | key | data => exact hs
  | accepted => exact .inl (by simp)
  | rst level =>
    cases level with
    | true => exact absurd rfl hop
    | false => exact hs

/-- Settles O18: the host's moves keep it, and a completion sets DONE. -/
theorem acceptedIsBusyOrDone : Obligations.AcceptedIsBusyOrDone := by
  intro s t hs h hreset hack
  cases step_move s t h with
  | resetWait hr | resetHost _ _ _ hr => exact absurd (.inl hr) hreset
  | wait => exact hs
  | host _ lat op rest _ _ _ hmoves _ hm =>
    exact hm.busy_or_done hs (fun he => hreset (.inr (he ▸ hmoves))) fun w he => hack w (he ▸ hmoves)
  | completion => exact .inr rfl

end Sys2Proof.Machine
end

section
/-! The register window in use (10_state.md R33, R35; 60_exceptions.md R238; 70_reset_and_hazards.md R263): DATA written and
read back, reset, the bridge, the writers of every operand, and what a step shows the host of KEY. -/

namespace Sys2Proof.Machine

/-! ## DATA -/

theorem writeData_of_idle {s : State} (hp : s.phase = .idle) (k : LaneIdx) (w : Word) :
    writeData k w s = { s with data := setWord s.data k w, dataMask := setMaskBit s.dataMask k } := by
  simp [writeData, busyBit_of_idle hp]

theorem regRead_dataIndex_of_idle {s : State} (hr : s.rst = false) (hp : s.phase = .idle) (k : LaneIdx) :
    regRead (dataIndex k) s = (wordOf s.data k, s) := by
  rw [regRead_dataIndex hr, readIdle_of_idle hp]

/-- Settles O30: out of reset a DATA write is `writeData`, refused while busy and `setWord` while idle, and an idle read is
the word. -/
theorem dataWriteReadsBack : Obligations.DataWriteReadsBack := by
  intro s k w hr
  refine ⟨fun c hp => ⟨?_, regRead_eq_with_draws ..⟩, fun hp => regRead_dataIndex_of_idle hr hp k,
    fun hp => ⟨_, regWrite_dataIndex hr k w, ?_⟩⟩
  · exact (regWrite_dataIndex hr k w).trans (congrArg _ (writeData_of_busy hp k w))
  · rw [writeData_of_idle hp]
    have hread := regRead_dataIndex_of_idle hr hp
    have hreadBack := regRead_dataIndex_of_idle
      (s := { s with data := setWord s.data k w, dataMask := setMaskBit s.dataMask k }) hr hp
    simp only [dataIndex] at hread hreadBack
    refine ⟨rfl, laneOf_setLane_same s.data k (bytes4 w), ?_, fun j hj => ?_, fun i hi => by simp [setWord, hi]⟩
    · rw [hreadBack, wordOf_setWord_same]
    · rw [hreadBack, hread, wordOf_setWord_other s.data j k w hj]

/-! ## Reset and the bridge -/

/-- Settles O35: the fields by definition, the reads index by index. -/
theorem resetStateHasResetValues : Obligations.ResetStateHasResetValues :=
  ⟨rfl, rfl, rfl, rfl, rfl, rfl, rfl, rfl, rfl, rfl, rfl, rfl, rfl, by decide⟩

/-- Settles O37: both transactions look at RST first. -/
theorem transactionsDuringResetDoNothing : Obligations.TransactionsDuringResetDoNothing := fun _ _ _ hr =>
  ⟨if_pos hr, if_pos hr⟩

/-- Settles O34: an index below 64 gives an offset below 256 that 4 divides. -/
theorem bridgeFindsEveryRegister : Obligations.BridgeFindsEveryRegister := by
  refine ⟨fun idx => ?_, fun a ha => if_pos ha⟩
  have hidx := idx.isLt
  have hinside : ¬(busAddress idx < Config.coreBase ∨ Config.coreBase + 256 ≤ busAddress idx) := by
    simp only [busAddress, byteOffset]
    omega
  have hoffset : busAddress idx - Config.coreBase = 4 * idx.toNat := Nat.add_sub_cancel_left ..
  rw [bridgeIndex, if_neg hinside, hoffset, if_pos (Nat.mul_mod_right ..), Nat.mul_div_cancel_left _ (by decide),
    BitVec.ofNat_toNat, BitVec.setWidth_eq]

/-! ## Errors -/

/-- Settles O23: of the moves of ERR and OVF only a raised error makes either new. -/
theorem onlyWritesRaiseErrors : Obligations.OnlyWritesRaiseErrors := by
  intro s t h hnew
  cases step_errorMove h with
  | raised _ idx w _ hop hctrl hstatus => exact ⟨idx, w, hop, hctrl, hstatus⟩
  | reset _ herr hovf => simp [herr, hovf] at hnew
  | status _ w _ herr hovf =>
    rw [herr, hovf] at hnew
    split at hnew <;> simp at hnew
  | keep _ _ herr hovf => simp [herr, hovf] at hnew

/-! ## The writers of KEY, SKHI, SKLO, DATA and the enables -/

/-- KEY after a completion: only CLEAR writes it (10_state.md R33). -/
theorem effectOf_key (c : Cfg) {i : Instr} (hi : i ≠ .clear) (s : State) : (effectOf c i s).key = s.key := by
  cases i with
  | clear => exact absurd rfl hi
  | _ => simp [effectOf]

/-- SKHI and SKLO after a completion: only CLEAR and SUBKEY write them (10_state.md R36, R37). -/
theorem effectOf_skhi_sklo (c : Cfg) {i : Instr} (hclear : i ≠ .clear) (hsubkey : ∀ r, i ≠ .subkey r) (s : State) :
    (effectOf c i s).skhi = s.skhi ∧ (effectOf c i s).sklo = s.sklo := by
  cases i with
  | clear => exact absurd rfl hclear
  | subkey r => exact absurd rfl (hsubkey r)
  | _ => simp [effectOf]

/-- The enables are no operand of a command (43_control_commands.md R191). -/
theorem effectOf_enables (c : Cfg) (i : Instr) (s : State) :
    (effectOf c i s).ieDone = s.ieDone ∧ (effectOf c i s).ieErr = s.ieErr := by
  rw [effectOf_frame]
  exact ⟨rfl, rfl⟩

/-- What the host's move can change out of reset: KEY and DATA by their writes while idle, the enables by a CTRL write,
and never SKHI or SKLO (10_state.md R28, R33, R35, R36, R37). -/
theorem HostMove.writers {s t : State} {op : HostOp} (hm : HostMove s op t) (hop : op ≠ .setRst true) :
    (t.key = s.key ∨ (s.phase = .idle ∧ ∃ k w, op = .wr (keyIndex k) w)) ∧
    (t.skhi = s.skhi ∧ t.sklo = s.sklo) ∧
    (t.data = s.data ∨ (s.phase = .idle ∧ ∃ k w, op = .wr (dataIndex k) w)) ∧
    ((t.ieDone = s.ieDone ∧ t.ieErr = s.ieErr) ∨ ∃ w, op = .wr 1#6 w) := by
  cases hm with
  | quiet _ _ hc => exact ⟨.inl hc.key, ⟨hc.skhi, hc.sklo⟩, .inl hc.data, .inl ⟨hc.ieDone, hc.ieErr⟩⟩
  | error => simp
  | ctrl w => exact ⟨.inl rfl, ⟨rfl, rfl⟩, .inl rfl, .inr ⟨w, rfl⟩⟩
  | status | accepted => exact ⟨.inl rfl, ⟨rfl, rfl⟩, .inl rfl, .inl ⟨rfl, rfl⟩⟩
  | key k w _ hidle => exact ⟨.inr ⟨hidle, k, w, rfl⟩, ⟨rfl, rfl⟩, .inl rfl, .inl ⟨rfl, rfl⟩⟩
  | data k w _ hidle => exact ⟨.inl rfl, ⟨rfl, rfl⟩, .inr ⟨hidle, k, w, rfl⟩, .inl ⟨rfl, rfl⟩⟩
  | rst level =>
    cases level with
    | true => exact absurd rfl hop
    | false => exact ⟨.inl rfl, ⟨rfl, rfl⟩, .inl rfl, .inl ⟨rfl, rfl⟩⟩

/-- Settles O32: without reset a step is a turn of the host, which writes as `HostMove.writers` says, or a completion,
which writes by its effect. -/
theorem keyAndSubkeyHaveOnlyTheirWriters : Obligations.KeyAndSubkeyHaveOnlyTheirWriters := by
  intro s t h
  by_cases hreset : resets s
  · exact ⟨fun _ => .inl hreset, fun _ => .inl hreset, fun _ => .inl hreset, fun _ => .inl hreset⟩
  cases step_move s t h with
  | resetWait hr | resetHost _ _ _ hr => exact absurd (.inl hr) hreset
  | wait => simp
  | host _ lat op rest _ _ _ hmoves _ hm =>
    obtain ⟨hkey, ⟨hskhi, hsklo⟩, hdata, henables⟩ := hm.writers fun he => hreset (.inr (he ▸ hmoves))
    refine ⟨fun hne => .inr (.inr ?_), fun hne => ?_, fun hne => .inr (.inl ?_), fun hne => .inr ?_⟩
    · obtain ⟨hidle, k, w, rfl⟩ := hkey.resolve_left hne
      exact ⟨hidle, k, w, hmoves⟩
    · exact absurd hne (by simp [hskhi, hsklo])
    · obtain ⟨hidle, k, w, rfl⟩ := hdata.resolve_left hne
      exact ⟨hidle, k, w, hmoves⟩
    · obtain ⟨w, rfl⟩ := henables.resolve_left (not_and_or.mpr hne)
      exact ⟨w, hmoves⟩
  | completion w i _ _ _ _ hcomp =>
    refine ⟨fun hne => .inr (.inl ?_), fun hne => .inr ?_, fun hne => .inr (.inr ?_), fun hne => ?_⟩
    · by_contra hother
      exact hne (effectOf_key Config.cfg (fun hi => hother (hi ▸ hcomp)) s)
    · by_contra hother
      push Not at hother
      obtain ⟨hskhi, hsklo⟩ := effectOf_skhi_sklo Config.cfg (fun hi => hother.1 (hi ▸ hcomp))
        (fun r hi => hother.2 r (hi ▸ hcomp)) s
      exact hne.elim (absurd hskhi) (absurd hsklo)
    · rw [hcomp]
      cases i with
      | nop | subkey => exact absurd (by simp [effectOf]) hne
      | _ => simp
    · obtain ⟨hieDone, hieErr⟩ := effectOf_enables Config.cfg i s
      exact hne.elim (absurd hieDone) (absurd hieErr)

/-! ## KEY and the host -/

theorem readIdle_with_key (w : Word) (s : State) (k : Block) :
    readIdle w { s with key := k } = ((readIdle w s).1, { (readIdle w s).2 with key := k }) := by
  have hbusy : busyBit { s with key := k } = busyBit s := rfl
  rw [readIdle, readIdle, hbusy]
  cases busyBit s <;> rfl

/-- No read sees KEY. -/
theorem regRead_with_key (idx : RegIndex) (s : State) (k : Block) :
    regRead idx { s with key := k } = ((regRead idx s).1, { (regRead idx s).2 with key := k }) := by
  by_cases hr : s.rst = true
  · rw [regRead, regRead, if_pos hr, if_pos hr]
  · rw [regRead, regRead, if_neg hr, if_neg hr]
    cases regOf idx with
    | data | skhi | sklo => exact readIdle_with_key ..
    | _ => rfl

theorem hostRead_with_key (idx : RegIndex) (name : String) (s : State) (k : Block) :
    hostRead idx name { s with key := k } = { hostRead idx name s with key := k } := by
  rw [hostRead, regRead_with_key]
  rfl

theorem raiseError_with_key (code : ErrorCode) (s : State) (k : Block) :
    raiseError code { s with key := k } = { raiseError code s with key := k } := by
  unfold raiseError
  split <;> rfl

theorem issue_with_key (nk nd : Bool) (w : Word) (s : State) (k : Block) :
    issue nk nd w { s with key := k } = { issue nk nd w s with key := k } := by
  unfold issue
  split_ifs
  · exact raiseError_with_key ..
  · exact raiseError_with_key ..
  · rfl

theorem idle_or_busy (s : State) : s.phase = .idle ∨ ∃ c, s.phase = .busy c := by
  cases s.phase with
  | idle => exact .inl rfl
  | busy c => exact .inr ⟨c, rfl⟩

theorem issueWord_with_key (k : Block) {w : Word} {s t : State} (h : issueWord w s = .next t) :
    issueWord w { s with key := k } = .next { t with key := k } := by
  rcases idle_or_busy s with hp | ⟨c, hp⟩
  · cases hd : decode w with
    | error e =>
      obtain rfl := Host.Outcome.next.inj ((issueWord_of_decode_error hp hd).symm.trans h)
      rw [issueWord_of_decode_error (s := { s with key := k }) hp hd, raiseError_with_key]
    | ok i =>
      obtain rfl := Host.Outcome.next.inj ((issueWord_of_decode_ok hp hd).symm.trans h)
      rw [issueWord_of_decode_ok (s := { s with key := k }) hp hd, issue_with_key]
  · obtain rfl := Host.Outcome.next.inj ((issueWord_of_busy hp w).symm.trans h)
    rw [issueWord_of_busy (s := { s with key := k }) hp, raiseError_with_key]

theorem writeKey_with_key (j : LaneIdx) (w : Word) (s : State) (k : Block) :
    ∃ k', writeKey j w { s with key := k } = { writeKey j w s with key := k' } := by
  rcases idle_or_busy s with hp | ⟨c, hp⟩
  · exact ⟨setWord k j w, by rw [writeKey_of_idle hp, writeKey_of_idle (s := { s with key := k }) hp]⟩
  · exact ⟨k, by rw [writeKey_of_busy hp, writeKey_of_busy (s := { s with key := k }) hp, raiseError_with_key]⟩

theorem writeData_with_key (j : LaneIdx) (w : Word) (s : State) (k : Block) :
    writeData j w { s with key := k } = { writeData j w s with key := k } := by
  rcases idle_or_busy s with hp | ⟨c, hp⟩
  · rw [writeData_of_idle hp, writeData_of_idle (s := { s with key := k }) hp]
  · rw [writeData_of_busy hp, writeData_of_busy (s := { s with key := k }) hp, raiseError_with_key]

/-- The indices by what a write does there (10_state.md R25). -/
theorem index_cases (idx : RegIndex) : (idx.toNat = 0 ∨ 12 ≤ idx.toNat) ∨ idx = 1#6 ∨ idx = 2#6 ∨ idx = 3#6 ∨
    (∃ j, idx = keyIndex j) ∨ ∃ j, idx = dataIndex j := by
  revert idx; decide

/-- A write goes on alike for every KEY, and leaves states that differ in KEY alone. -/
theorem regWrite_with_key (k : Block) {idx : RegIndex} {w : Word} {s t : State} (h : regWrite idx w s = .next t) :
    ∃ k', regWrite idx w { s with key := k } = .next { t with key := k' } := by
  by_cases hhigh : s.rst = true
  · obtain rfl := Host.Outcome.next.inj ((if_pos hhigh).symm.trans h)
    exact ⟨k, if_pos hhigh⟩
  have hr : s.rst = false := Bool.eq_false_iff.mpr hhigh
  rcases index_cases idx with hidx | rfl | rfl | rfl | ⟨j, rfl⟩ | ⟨j, rfl⟩
  · obtain rfl := Host.Outcome.next.inj ((regWrite_readOnly hr hidx w).symm.trans h)
    exact ⟨k, (regWrite_readOnly (s := { s with key := k }) hr hidx w).trans (congrArg _ (raiseError_with_key ..))⟩
  · obtain rfl := Host.Outcome.next.inj ((regWrite_ctrl hr w).symm.trans h)
    exact ⟨k, regWrite_ctrl (s := { s with key := k }) hr w⟩
  · obtain rfl := Host.Outcome.next.inj ((regWrite_status hr w).symm.trans h)
    exact ⟨k, regWrite_status (s := { s with key := k }) hr w⟩
  · rw [regWrite_cmd hr] at h
    exact ⟨k, (regWrite_cmd (s := { s with key := k }) hr w).trans (issueWord_with_key k h)⟩
  · obtain rfl := Host.Outcome.next.inj ((regWrite_keyIndex hr j w).symm.trans h)
    obtain ⟨k', hk'⟩ := writeKey_with_key j w s k
    exact ⟨k', (regWrite_keyIndex (s := { s with key := k }) hr j w).trans (congrArg _ hk')⟩
  · obtain rfl := Host.Outcome.next.inj ((regWrite_dataIndex hr j w).symm.trans h)
    exact ⟨k, (regWrite_dataIndex (s := { s with key := k }) hr j w).trans (congrArg _ (writeData_with_key ..))⟩

/-- An operation of the host goes on alike for every KEY, and leaves states that differ in KEY alone. -/
theorem hostOp_with_key (k : Block) {op : HostOp} {s t : State} (h : hostOp op s = .next t) :
    ∃ k', hostOp op { s with key := k } = .next { t with key := k' } := by
  cases op with
  | wr => exact regWrite_with_key k h
  | rd idx name =>
    cases h
    exact ⟨k, congrArg _ (hostRead_with_key ..)⟩
  | wait =>
    cases h
    refine ⟨k, congrArg Host.Outcome.next ?_⟩
    rw [hostWait, hostWait, hostRead_with_key, regRead_with_key]
    dsimp only
    split <;> rfl
  | waitIrq =>
    cases h
    refine ⟨k, congrArg Host.Outcome.next ?_⟩
    rw [hostWaitIrq, hostWaitIrq, show irq { s with key := k } = irq s from rfl]
    split <;> rfl
  | check =>
    cases h
    refine ⟨k, congrArg Host.Outcome.next ?_⟩
    rw [hostCheck, hostCheck]
    dsimp only
    split
    · rfl
    · split <;> rfl
  | callEnter | callLeave =>
    cases h
    exact ⟨k, rfl⟩
  | setRst level =>
    cases h
    cases level with
    | true => exact ⟨zeroBlock, rfl⟩
    | false => exact ⟨k, rfl⟩

theorem hostStep_of_nil {s : State} (hh : s.host = []) : hostStep s = .next s := by
  rw [hostStep, hh]

theorem hostStep_with_key (k : Block) {s t : State} (h : hostStep s = .next t) :
    ∃ k', hostStep { s with key := k } = .next { t with key := k' } := by
  by_cases hh : s.host = []
  · obtain rfl := Host.Outcome.next.inj ((hostStep_of_nil hh).symm.trans h)
    exact ⟨k, hostStep_of_nil (s := { s with key := k }) hh⟩
  · obtain ⟨op, rest, hcons⟩ := List.exists_cons_of_ne_nil hh
    obtain ⟨k', hk'⟩ := hostOp_with_key k ((hostStep_of_cons hcons).symm.trans h)
    exact ⟨k', (hostStep_of_cons (s := { s with key := k }) hcons).trans hk'⟩

/-- What the host sees of a completion does not depend on KEY: an effect takes nothing from KEY into the masks, and leaves
the readings, the enables, ERR and OVF. -/
theorem complete_with_key (c : Cfg) (i : Instr) (s : State) (k : Block) :
    (complete (effectOf c i) { s with key := k }).reads = (complete (effectOf c i) s).reads ∧
      irq (complete (effectOf c i) { s with key := k }) = irq (complete (effectOf c i) s) ∧
      statusWord (complete (effectOf c i) { s with key := k }) = statusWord (complete (effectOf c i) s) := by
  have hreads (u : State) : (effectOf c i u).reads = u.reads := by rw [effectOf_frame]
  have henables (u : State) := effectOf_enables c i u
  simp only [irq, statusWord, busyBit, complete_reads, complete_phase, complete_done, complete_ovf, complete_err,
    complete_ieDone, complete_ieErr, complete_keyMask, complete_dataMask, hreads, henables, effectOf_err, effectOf_ovf,
    effectOf_keyMask, effectOf_dataMask, and_self]

/-- Settles O33: a turn of the host keeps the states equal but for KEY, which shows nowhere; a completion shows the masks,
which its effect does not take from KEY. -/
theorem oneStepReadsNoKey : Obligations.OneStepReadsNoKey := by
  intro s t k h
  have hturn {u : State} (hu : hostStep u = .next t) : ∃ t', hostStep { u with key := k } = .next t' ∧
      t'.reads = t.reads ∧ irq t' = irq t ∧ statusWord t' = statusWord t := by
    obtain ⟨k', hk'⟩ := hostStep_with_key k hu
    exact ⟨_, hk', rfl, rfl, rfl⟩
  rcases step_cases s with ⟨hr, he⟩ | ⟨hr, hp, he⟩ | ⟨hr, ⟨w, hp⟩, hl, he⟩ | ⟨hr, hl, w, hp, he⟩ <;> rw [he] at h
  · have hstep : step { s with key := k } = hostStep (resetCore s) := by simp [step, cycle, hr, resetCore]
    exact ⟨t, hstep.trans h, rfl, rfl, rfl⟩
  · rw [step_of_idle (s := { s with key := k }) hr hp]
    exact hturn h
  · rw [step_of_busy (s := { s with key := k }) hr hp hl]
    exact hturn h
  · cases hd : decode w with
    | error e => simp [completion, hd] at h
    | ok i =>
      have hexec : completion w s = .next (complete (effectOf Config.cfg i) s) := by
        rw [completion, hd]
        exact exec_of_busy hp i
      obtain rfl := Host.Outcome.next.inj (hexec.symm.trans h)
      exact ⟨_, (step_of_latency_zero (s := { s with key := k }) hr hp hl hd).trans
        (exec_of_busy (s := { s with key := k }) hp i), complete_with_key Config.cfg i s k⟩

end Sys2Proof.Machine
end

section
/-! The invariant of CORE: at reset, kept by every step, and enough for a step to go on. -/

namespace Sys2Proof.Machine

/-! ## States at their reset values -/

/-- CORE at its reset values meets the invariant. -/
theorem inv_of_resetCore_eq_self {s : State} (h : resetCore s = s) : Inv s := by
  obtain ⟨-, -, hphase, -, hovf, herr, hkeyMask, -, hkey, -, hskhi, -, -⟩ := (resetCore_eq_self_iff s).mp h
  exact {
    err_defined := by simp [herr]
    ovf_after_err := by simp [hovf]
    pend_accepted := by simp [hphase]
    skhi_reserved := by simp [hskhi]
    key_unwritten := fun k _ => hkey ▸ wordOf_zeroBlock k
    rst_held := fun _ => h }

/-- Settles O38: the state after reset is at its reset values. -/
theorem resetMeetsInvariant : Obligations.ResetMeetsInvariant := inv_of_resetCore_eq_self rfl

/-! ## What one step keeps -/

theorem errorValue_le (code : ErrorCode) : (errorValue code).toNat ≤ 5 := by cases code <;> decide

/-- The codes of R231 stay the only ones in ERR, and OVF waits for ERR (60_exceptions.md R231, R236). -/
theorem ErrorMove.inv {s t : State} (hm : ErrorMove s t) (herr : s.err.toNat ≤ 5) (hovf : s.ovf = true → s.err ≠ 0#4) :
    t.err.toNat ≤ 5 ∧ (t.ovf = true → t.err ≠ 0#4) := by
  cases hm with
  | reset _ he ho => simp [he, ho]
  | raised _ _ _ code _ _ _ he ho =>
    by_cases h0 : s.err = 0#4
    · rw [if_pos h0] at he
      exact ⟨he ▸ errorValue_le code, fun _ => he ▸ errorValue_ne_zero code⟩
    · rw [if_neg h0] at he
      exact ⟨he ▸ herr, fun _ => he ▸ h0⟩
  | status _ w _ he ho =>
    by_cases hw : w.getLsbD 2 = true
    · rw [if_pos hw] at he ho
      simp [he, ho]
    · rw [if_neg hw] at he ho
      exact ⟨he ▸ herr, fun h => he ▸ hovf (ho ▸ h)⟩
  | keep _ _ he ho => exact ⟨he ▸ herr, fun h => he ▸ hovf (ho ▸ h)⟩

/-- What the invariant says of PHASE: the word is one that CORE may accept, with its needs met and DONE 0
(43_control_commands.md R190). -/
def PendAccepted (s : State) : Prop :=
  ∀ w, s.phase = .busy w → s.done = false ∧ ∃ i, decode w = .ok i ∧
    (needsKey i = true → s.keyMask = 0b1111#4) ∧ (needsData i = true → s.dataMask = 0b1111#4)

/-- What the invariant says of KEY: a word that was not written is zero (10_state.md R31, R33). -/
def KeyUnwritten (s : State) : Prop :=
  ∀ k : LaneIdx, s.keyMask.getLsbD k.val = false → wordOf s.key k = 0#32

theorem pendAccepted_of_idle {s : State} (hp : s.phase = .idle) : PendAccepted s := by
  simp [PendAccepted, hp]

/-- A host's move that is no reset keeps an accepted word accepted: a running command's masks and DONE stay, and the
acceptance has checked the masks (10_state.md R41). -/
theorem HostMove.pendAccepted {s t : State} {op : HostOp} (hm : HostMove s op t) (hs : PendAccepted s) :
    PendAccepted t := by
  cases hm with
  | quiet _ _ hc => rwa [PendAccepted, hc.phase, hc.done, hc.keyMask, hc.dataMask]
  | error => simpa [PendAccepted] using hs
  | ctrl => exact hs
  | status => exact fun w hp => ⟨by simp [(hs w hp).1], (hs w hp).2⟩
  | key _ _ _ hidle | data _ _ _ hidle => exact pendAccepted_of_idle hidle
  | accepted _ i _ _ _ hkey hdata =>
    rintro w hp
    obtain rfl : encode i = w := Phase.busy.inj hp
    exact ⟨rfl, i, decode_encode i, fun hn => (maskFull_eq_true_iff _).mp (hkey hn),
      fun hn => (maskFull_eq_true_iff _).mp (hdata hn)⟩
  | rst level =>
    cases level with
    | true => exact pendAccepted_of_idle rfl
    | false => exact hs

theorem setMaskBit_getLsbD (m : BitVec 4) (j k : LaneIdx) :
    (setMaskBit m k).getLsbD j.val = (m.getLsbD j.val || decide (j = k)) := by
  revert m j k; decide

/-- A host's move keeps the unwritten key words zero: a KEY write sets its own mask bit. -/
theorem HostMove.keyUnwritten {s t : State} {op : HostOp} (hm : HostMove s op t) (hs : KeyUnwritten s) :
    KeyUnwritten t := by
  cases hm with
  | quiet _ _ hc => rwa [KeyUnwritten, hc.key, hc.keyMask]
  | error => simpa [KeyUnwritten] using hs
  | ctrl | status | data | accepted => exact hs
  | key k w =>
    intro j hj
    rw [setMaskBit_getLsbD, Bool.or_eq_false_iff, decide_eq_false_iff_not] at hj
    obtain ⟨hbit, hne⟩ := hj
    exact (wordOf_setWord_other s.key j k w hne).trans (hs j hbit)
  | rst level =>
    cases level with
    | true => exact fun j _ => wordOf_zeroBlock j
    | false => exact hs

/-- A completion keeps them zero: CLEAR zeroes the words with their mask, and no other command writes either. -/
theorem keyUnwritten_effectOf (c : Cfg) (i : Instr) {s : State} (hs : KeyUnwritten s) :
    KeyUnwritten (effectOf c i s) := by
  by_cases hi : i = .clear
  · subst hi
    exact fun j _ => wordOf_zeroBlock j
  · rwa [KeyUnwritten, effectOf_key c hi, effectOf_keyMask, if_neg hi]

/-- The bits that SKHI reserves, as a mask (10_state.md R36). -/
theorem reservedMask_getLsbD {j : Nat} (hj : j < 32) :
    (0xFFF0E000#32).getLsbD j = true ↔ 20 ≤ j ∨ (13 ≤ j ∧ j < 16) := by
  revert j; decide

/-- The fields of SKHI leave its reserved bits 0 (40_key_schedule.md R106). -/
theorem skhiOf_getLsbD_reserved (r : RoundIdx) (sk : Subkey) {j : Nat} (hj : 20 ≤ j ∨ (13 ≤ j ∧ j < 16)) :
    (skhiOf r sk).getLsbD j = false := by
  rw [skhiOf, BitVec.getLsbD_setWidth, Bool.and_eq_false_iff]
  refine .inr ?_
  show BitVec.getLsbD (w := 4 + 3 + 5 + 8) _ j = false
  rcases hj with hhigh | ⟨hlo, hhi⟩
  · exact BitVec.getLsbD_of_ge _ _ hhigh
  · rw [BitVec.getLsbD_append, if_neg (by omega), BitVec.getLsbD_append, if_neg (by omega), BitVec.getLsbD_append,
      if_pos (by omega), BitVec.getLsbD_zero]

theorem skhiOf_reserved (r : RoundIdx) (sk : Subkey) : skhiOf r sk &&& 0xFFF0E000#32 = 0#32 := by
  apply BitVec.eq_of_getLsbD_eq
  intro j hj
  rw [BitVec.getLsbD_and, BitVec.getLsbD_zero, Bool.and_eq_false_iff]
  by_cases hmask : (0xFFF0E000#32).getLsbD j = true
  · exact .inl (skhiOf_getLsbD_reserved r sk ((reservedMask_getLsbD hj).mp hmask))
  · exact .inr (Bool.eq_false_iff.mpr hmask)

theorem effectOf_skhi_reserved (c : Cfg) (i : Instr) {s : State} (hs : s.skhi &&& 0xFFF0E000#32 = 0#32) :
    (effectOf c i s).skhi &&& 0xFFF0E000#32 = 0#32 := by
  cases i with
  | subkey r => exact skhiOf_reserved r _
  | clear => simp [effectOf]
  | _ => simpa [effectOf] using hs

/-- A host's move that does not drive RST high leaves it low, if it was. -/
theorem HostMove.rst_eq_false {s t : State} {op : HostOp} (hm : HostMove s op t) (hr : s.rst = false)
    (hop : op ≠ .setRst true) : t.rst = false := by
  cases hm with
  | quiet _ _ hc => exact hc.rst.trans hr
  | error => simpa using hr
  | ctrl | status | key | data | accepted => exact hr
  | rst level =>
    cases level with
    | true => exact absurd rfl hop
    | false => rfl

/-- Settles O39: a step in or into reset ends at the reset values; any other is a turn of the host or a completion, each
of which keeps every part. -/
theorem stepKeepsInvariant : Obligations.StepKeepsInvariant := by
  intro s t hs h
  by_cases hreset : resets s
  · exact inv_of_resetCore_eq_self (resetCore_eq_self_of_step h hreset)
  obtain ⟨herr, hovf⟩ := (step_errorMove h).inv hs.err_defined hs.ovf_after_err
  suffices hrest : PendAccepted t ∧ t.skhi &&& 0xFFF0E000#32 = 0#32 ∧ KeyUnwritten t ∧ t.rst = false by
    obtain ⟨hpend, hskhi, hkey, hrst⟩ := hrest
    exact ⟨herr, hovf, hpend, hskhi, hkey, by simp [hrst]⟩
  cases step_move s t h with
  | resetWait hr | resetHost _ _ _ hr => exact absurd (.inl hr) hreset
  | wait _ hr => exact ⟨hs.pend_accepted, hs.skhi_reserved, hs.key_unwritten, hr⟩
  | host _ lat op rest hr _ _ hmoves _ hm =>
    have hop : op ≠ .setRst true := fun he => hreset (.inr (he ▸ hmoves))
    obtain ⟨_, ⟨hskhi, _⟩, _⟩ := hm.writers hop
    exact ⟨hm.pendAccepted hs.pend_accepted, hskhi ▸ hs.skhi_reserved, hm.keyUnwritten hs.key_unwritten,
      hm.rst_eq_false hr hop⟩
  | completion w i hr =>
    refine ⟨pendAccepted_of_idle rfl, effectOf_skhi_reserved _ i hs.skhi_reserved,
      keyUnwritten_effectOf Config.cfg i hs.key_unwritten, ?_⟩
    rw [complete_rst, effectOf_frame]
    exact hr

/-- Settles O40: the one way to stop is a completion of an illegal word, which the invariant excludes. -/
theorem invariantStatesContinue : Obligations.InvariantStatesContinue := by
  intro s hs
  rcases step_cases s with ⟨_, he⟩ | ⟨_, _, he⟩ | ⟨_, _, _, he⟩ | ⟨hr, hl, w, hp, _⟩
  · exact (hostStep_next _).imp fun _ => he.trans
  · exact (hostStep_next _).imp fun _ => he.trans
  · exact (hostStep_next _).imp fun _ => he.trans
  · obtain ⟨_, i, hd, _⟩ := hs.pend_accepted w hp
    exact ⟨_, (step_of_latency_zero hr hp hl hd).trans (exec_of_busy hp i)⟩

end Sys2Proof.Machine
end

section
/-! The driver on CORE (44_host_driver.md R201, R207): what each of its operations does to an idle CORE with RST released,
then a block, a stream and a whole call, each as the states it leads to. -/

namespace Sys2Proof.Machine

/-! ## Runs -/

/-- A run that goes on took a first step that goes on. -/
theorem exists_step_of_run {m : Host.Core} {n : Nat} {s t : m.State} (h : m.run (n + 1) s = .next t) :
    ∃ u, m.step s = .next u ∧ m.run n u = .next t := by
  rw [Host.Core.run] at h
  cases hstep : m.step s with
  | next u => exact ⟨u, rfl, by rwa [hstep] at h⟩
  | fault | refused => simp [hstep] at h

/-- Some number of steps leads from one state to the other. -/
def Reaches (s t : State) : Prop := ∃ n, Host.Core.run core n s = .next t

theorem Reaches.refl (s : State) : Reaches s s := ⟨0, rfl⟩

theorem Reaches.head {s t u : State} (h : step s = .next t) (ht : Reaches t u) : Reaches s u := by
  obtain ⟨n, hn⟩ := ht
  exact ⟨n + 1, (run_succ (m := core) n h).trans hn⟩

theorem Reaches.trans {s t u : State} (h : Reaches s t) (ht : Reaches t u) : Reaches s u := by
  obtain ⟨n, hn⟩ := h
  induction n generalizing s with
  | zero =>
    obtain rfl := Host.Outcome.next.inj hn
    exact ht
  | succ n ih =>
    obtain ⟨v, hstep, hv⟩ := exists_step_of_run (m := core) hn
    exact .head hstep (ih hv)

/-- One operation of an idle CORE out of reset. -/
theorem reaches_of_hostOp {s t : State} {op : HostOp} {rest : List HostOp} (hr : s.rst = false) (hp : s.phase = .idle)
    (hh : s.host = op :: rest) (h : hostOp op { s with host := rest } = .next t) : Reaches s t :=
  .head (((step_of_idle hr hp).trans (hostStep_of_cons hh)).trans h) (.refl t)

/-! ## Writes -/

section

variable {s : State} {rest : List HostOp} (hr : s.rst = false) (hp : s.phase = .idle)
include hr hp

theorem reaches_dataWrite (k : LaneIdx) (w : Word) (hh : s.host = .wr (dataIndex k) w :: rest) :
    Reaches s { s with data := setWord s.data k w, dataMask := setMaskBit s.dataMask k, host := rest } :=
  reaches_of_hostOp hr hp hh ((regWrite_dataIndex (s := { s with host := rest }) hr k w).trans
    (congrArg _ (writeData_of_idle (s := { s with host := rest }) hp k w)))

theorem reaches_keyWrite (k : LaneIdx) (w : Word) (hh : s.host = .wr (keyIndex k) w :: rest) :
    Reaches s { s with key := setWord s.key k w, keyMask := setMaskBit s.keyMask k, host := rest } :=
  reaches_of_hostOp hr hp hh ((regWrite_keyIndex (s := { s with host := rest }) hr k w).trans
    (congrArg _ (writeKey_of_idle (s := { s with host := rest }) hp k w)))

end

/-- Writing all four words of a register, from any value, writes the block. -/
theorem setWord_four (b x : Block) :
    setWord (setWord (setWord (setWord b 0 (wordOf x 0)) 1 (wordOf x 1)) 2 (wordOf x 2)) 3 (wordOf x 3) = x := by
  apply block_ext_lanes
  intro k
  simp only [setWord, wordOf, bytes4_be32]
  match k with
  | 0 | 1 | 2 | 3 => simp [laneOf_setLane_other]

/-- Writing all four words fills the mask, whatever it was. -/
theorem setMaskBit_four (m : BitVec 4) : setMaskBit (setMaskBit (setMaskBit (setMaskBit m 0) 1) 2) 3 = 0b1111#4 := by
  revert m; decide

section

variable {s : State} {rest : List HostOp} (hr : s.rst = false) (hp : s.phase = .idle)
include hr hp

/-- LDBLK loads the block (30_encoding.md R91). -/
theorem reaches_ldBlk (x : Block)
    (hh : s.host = ldBlk (wordOf x 0) (wordOf x 1) (wordOf x 2) (wordOf x 3) ++ rest) :
    Reaches s { s with data := x, dataMask := 0b1111#4, host := rest } := by
  have h0 := reaches_dataWrite hr hp 0 _ hh
  have h1 := h0.trans (reaches_dataWrite (by exact hr) (by exact hp) 1 _ rfl)
  have h2 := h1.trans (reaches_dataWrite (by exact hr) (by exact hp) 2 _ rfl)
  have h3 := h2.trans (reaches_dataWrite (by exact hr) (by exact hp) 3 _ rfl)
  rw [setWord_four, setMaskBit_four] at h3
  exact h3

/-- LDKEY loads the key (30_encoding.md R91). -/
theorem reaches_ldKey (k : Block)
    (hh : s.host = ldKey (wordOf k 0) (wordOf k 1) (wordOf k 2) (wordOf k 3) ++ rest) :
    Reaches s { s with key := k, keyMask := 0b1111#4, host := rest } := by
  have h0 := reaches_keyWrite hr hp 0 _ hh
  have h1 := h0.trans (reaches_keyWrite (by exact hr) (by exact hp) 1 _ rfl)
  have h2 := h1.trans (reaches_keyWrite (by exact hr) (by exact hp) 2 _ rfl)
  have h3 := h2.trans (reaches_keyWrite (by exact hr) (by exact hp) 3 _ rfl)
  rw [setWord_four, setMaskBit_four] at h3
  exact h3

end

/-! ## A command and its WAIT -/

/-- An effect neither reads nor writes the host's list and the readings. -/
theorem complete_with_host_reads (c : Cfg) (i : Instr) {s u : State} (hu : complete (effectOf c i) s = u)
    (host : List HostOp) (reads : List Reading) :
    complete (effectOf c i) { s with host := host, reads := reads } = { u with host := host, reads := reads } := by
  subst hu
  cases i <;> rfl

/-- The completion overwrites PHASE and DONE, and its effect reads neither. -/
theorem complete_with_phase_done (c : Cfg) (i : Instr) (s : State) (phase : Phase) (done : Bool) :
    complete (effectOf c i) { s with phase := phase, done := done } = complete (effectOf c i) s := by
  cases i <;> rfl

/-- What a poll of STATUS by WAIT, or by `RD STATUS -> s`, records (30_encoding.md R91). -/
def statusReading (s : State) : Reading := { name := "s", idx := 2#6, value := statusWord s }

/-- WAIT on an idle CORE reads STATUS once and is done. -/
theorem reaches_wait_of_idle {s : State} {rest : List HostOp} (hr : s.rst = false) (hp : s.phase = .idle)
    (hh : s.host = .wait :: rest) : Reaches s { s with host := rest, reads := statusReading s :: s.reads } := by
  refine reaches_of_hostOp hr hp hh (congrArg Host.Outcome.next ?_)
  rw [hostWait_eq (s := { s with host := rest }) hr, busyBit_of_idle (s := { s with host := rest }) hp]
  rfl

/-- WAIT on a running command with latency left reads STATUS and stays next. -/
theorem step_wait_of_busy {s : State} {w : Word} {rest : List HostOp} (hr : s.rst = false) (hp : s.phase = .busy w)
    (hl : s.lat ≠ 0) (hh : s.host = .wait :: rest) :
    step s = .next { s with lat := s.lat - 1, reads := statusReading s :: s.reads } := by
  have hop := hostStep_of_cons (s := { s with lat := s.lat - 1 }) hh
  refine ((step_of_busy hr hp hl).trans hop).trans (congrArg Host.Outcome.next ?_)
  rw [hostWait_eq (s := { s with lat := s.lat - 1, host := rest }) hr,
    busyBit_of_busy (s := { s with lat := s.lat - 1, host := rest }) hp, hh]
  rfl

/-- WAIT polls STATUS until the running command has completed: by induction on the latency, one poll a step
(30_encoding.md R91). -/
theorem reaches_wait (n : Nat) {s : State} {w : Word} {i : Instr} {rest : List HostOp} (hr : s.rst = false)
    (hp : s.phase = .busy w) (hl : s.lat = n) (hd : decode w = .ok i) (hh : s.host = .wait :: rest) :
    ∃ polls : List Reading, (∀ r ∈ polls, r.idx = 2#6) ∧
      Reaches s (complete (effectOf Config.cfg i) { s with lat := 0, host := rest, reads := polls ++ s.reads }) := by
  induction n generalizing s with
  | zero =>
    obtain ⟨u, hu⟩ : ∃ u, complete (effectOf Config.cfg i) s = u := ⟨_, rfl⟩
    have hcomplete : step s = .next u := hu ▸ (step_of_latency_zero hr hp hl hd).trans (exec_of_busy hp i)
    have hrst : u.rst = false := by rw [← hu, complete_rst, effectOf_frame]; exact hr
    have hhost : u.host = .wait :: rest := by rw [← hu, complete_host, effectOf_host]; exact hh
    have hreads : u.reads = s.reads := by rw [← hu, complete_reads, effectOf_frame]
    have hreach := Reaches.head hcomplete (reaches_wait_of_idle hrst (hu ▸ rfl) hhost)
    rw [← complete_with_host_reads Config.cfg i hu, hreads] at hreach
    refine ⟨[statusReading u], by simp [statusReading], ?_⟩
    rw [← hl]
    exact hreach
  | succ n ih =>
    have hne : s.lat ≠ 0 := by omega
    have hstep := step_wait_of_busy hr hp hne hh
    obtain ⟨polls, hpolls, hreach⟩ := ih (s := { s with lat := s.lat - 1, reads := statusReading s :: s.reads }) hr hp
      (by simp [hl]) hh
    refine ⟨polls ++ [statusReading s], ?_, .head hstep ?_⟩
    · simpa [or_imp, forall_and, statusReading] using hpolls
    · simpa using hreach

/-- RUN of a command whose needs the masks meet: it is accepted, and completes while WAIT polls (30_encoding.md R91;
43_control_commands.md R190). -/
theorem reaches_runCmd {s : State} {i : Instr} {rest : List HostOp} (hr : s.rst = false) (hp : s.phase = .idle)
    (hkey : needsKey i = true → s.keyMask = 0b1111#4) (hdata : needsData i = true → s.dataMask = 0b1111#4)
    (hh : s.host = cmdOp i :: .wait :: rest) :
    ∃ polls : List Reading, (∀ r ∈ polls, r.idx = 2#6) ∧
      Reaches s (complete (effectOf Config.cfg i)
        { s with lat := 0, draws := s.draws + 1, host := rest, reads := polls ++ s.reads }) := by
  have hissue : issue (needsKey i) (needsData i) (encode i) { s with host := .wait :: rest } =
      accept (encode i) { s with host := .wait :: rest } := by
    rw [issue_eq_ite, if_neg fun h => h.2 (hkey h.1), if_neg fun h => h.2 (hdata h.1)]
  have hwrite : hostOp (cmdOp i) { s with host := .wait :: rest } =
      .next (accept (encode i) { s with host := .wait :: rest }) := by
    rw [← hissue]
    exact (regWrite_cmd (s := { s with host := .wait :: rest }) hr _).trans
      (issueWord_of_decode_ok (s := { s with host := .wait :: rest }) hp (decode_encode i))
  obtain ⟨polls, hpolls, hreach⟩ := reaches_wait _ (s := accept (encode i) { s with host := .wait :: rest })
    hr rfl rfl (decode_encode i) rfl
  refine ⟨polls, hpolls, (reaches_of_hostOp hr hp hh hwrite).trans ?_⟩
  rw [← complete_with_phase_done _ _ _ (.busy (encode i)) false]
  exact hreach

/-! ## Reads and the check of ERR -/

/-- ERR is bits 7:4 of the STATUS view (10_state.md R29). -/
theorem extractLsb'_statusWord (s : State) : (statusWord s).extractLsb' 4 4 = s.err := by
  apply BitVec.eq_of_toNat_eq
  have herr := s.err.isLt
  rw [BitVec.extractLsb'_toNat, statusWord_toNat, Nat.shiftRight_eq_div_pow]
  have hbusy := Bool.toNat_le (busyBit s)
  have hdone := Bool.toNat_le s.done
  have hovf := Bool.toNat_le s.ovf
  omega

section

variable {s : State} {rest : List HostOp} (hr : s.rst = false) (hp : s.phase = .idle)
include hr hp

/-- With ERR 0 the driver's read of STATUS and its check go on (44_host_driver.md R207). -/
theorem reaches_statusCheck (herr : s.err = 0#4) (hh : s.host = .rd statusIndex "s" :: .check :: rest) :
    Reaches s { s with host := rest, reads := statusReading s :: s.reads } := by
  have hread : hostRead statusIndex "s" { s with host := .check :: rest } =
      { s with host := .check :: rest, reads := statusReading s :: s.reads } := by
    rw [hostRead, statusIndex, regRead_status (s := { s with host := .check :: rest }) hr]
    rfl
  have hcheck : hostCheck { s with host := rest, reads := statusReading s :: s.reads } =
      { s with host := rest, reads := statusReading s :: s.reads } := by
    have hlast : readingOf "s" (statusReading s :: s.reads) = some (statusWord s) := rfl
    rw [hostCheck, hlast]
    exact if_pos ((extractLsb'_statusWord s).trans herr)
  have h := reaches_of_hostOp hr hp hh (congrArg Host.Outcome.next hread)
  exact h.trans (reaches_of_hostOp (by exact hr) (by exact hp) rfl (congrArg Host.Outcome.next hcheck))

theorem reaches_dataRead (k : LaneIdx) (name : String) (hh : s.host = .rd (dataIndex k) name :: rest) :
    Reaches s { s with
      host := rest
      reads := { name := name, idx := dataIndex k, value := wordOf s.data k } :: s.reads } := by
  refine reaches_of_hostOp hr hp hh (congrArg Host.Outcome.next ?_)
  rw [hostRead, regRead_dataIndex_of_idle (s := { s with host := rest }) hr hp]

end

/-- What RDBLK records of a block, the newest first (30_encoding.md R91). -/
def blockReadings (b : String) (x : Block) : List Reading :=
  [{ name := b ++ "3", idx := dataIndex 3, value := wordOf x 3 },
    { name := b ++ "2", idx := dataIndex 2, value := wordOf x 2 },
    { name := b ++ "1", idx := dataIndex 1, value := wordOf x 1 },
    { name := b ++ "0", idx := dataIndex 0, value := wordOf x 0 }]

/-- RDBLK reads the block (30_encoding.md R91). -/
theorem reaches_rdBlk {s : State} {rest : List HostOp} (hr : s.rst = false) (hp : s.phase = .idle) (b : String)
    (hh : s.host = rdBlk b ++ rest) :
    Reaches s { s with host := rest, reads := blockReadings b s.data ++ s.reads } := by
  have h0 := reaches_dataRead hr hp 0 _ hh
  have h1 := h0.trans (reaches_dataRead (by exact hr) (by exact hp) 1 _ rfl)
  have h2 := h1.trans (reaches_dataRead (by exact hr) (by exact hp) 2 _ rfl)
  exact h2.trans (reaches_dataRead (by exact hr) (by exact hp) 3 _ rfl)

/-! ## The bytes among the readings -/

theorem outputBytes_append (new old : List Reading) :
    outputBytes (new ++ old) = outputBytes old ++ outputBytes new := by
  simp [outputBytes]

/-- Readings of STATUS are no output. -/
theorem outputBytes_of_status {reads : List Reading} (h : ∀ r ∈ reads, r.idx = 2#6) : outputBytes reads = [] := by
  have hnone : reads.reverse.filter (fun r => 8 ≤ r.idx.toNat && r.idx.toNat ≤ 11) = [] := by
    rw [List.filter_eq_nil_iff]
    intro r hmem
    simp [h r (List.mem_reverse.mp hmem)]
  rw [outputBytes, hnone]
  rfl

/-- A block is its four lanes in order (00_scope.md R13). -/
theorem toList_eq_lanes (x : Block) :
    x.toList = (laneOf x 0).toList ++ (laneOf x 1).toList ++ (laneOf x 2).toList ++ (laneOf x 3).toList := by
  apply List.ext_getElem
  · simp
  · intro i hi _
    simp only [List.getElem_append, List.length_append, Vector.length_toList, Vector.getElem_toList, laneOf_getElem]
    split_ifs <;> congr 1 <;> simp <;> omega

/-- The readings of a block are its bytes. -/
theorem outputBytes_blockReadings (b : String) (x : Block) : outputBytes (blockReadings b x) = x.toList := by
  have hword (k : LaneIdx) : bytes4 (wordOf x k) = laneOf x k := bytes4_be32 _
  rw [toList_eq_lanes]
  simp [outputBytes, blockReadings, dataIndex, hword]

/-! ## A block -/

/-- The transform of a block that a direction asks for (44_host_driver.md R207). -/
def blockCipher (c : Cfg) (dir : Direction) (x k : Block) : Block :=
  match dir with
  | .encrypt => encrypt c x k
  | .decrypt => decrypt c x k

/-- What the block command of a direction completes with (42_block_core.md R167, R168). -/
theorem complete_blockCommand (c : Cfg) (dir : Direction) (s : State) :
    complete (effectOf c (blockCommand dir)) s = { s with
      data := blockCipher c dir s.data s.key, dataMask := 0#4, phase := .idle, done := true } := by
  cases dir <;> rfl

/-- The driver's operations for one block end with the block transformed and read back (44_host_driver.md R207). -/
theorem reaches_driveBlock {s : State} (dir : Direction) (x : Block) {rest : List HostOp} (hr : s.rst = false)
    (hp : s.phase = .idle) (herr : s.err = 0#4) (hkey : s.keyMask = 0b1111#4)
    (hh : s.host = driveBlock dir x ++ rest) :
    ∃ polls : List Reading, (∀ r ∈ polls, r.idx = 2#6) ∧ Reaches s { s with
      data := blockCipher Config.cfg dir x s.key, dataMask := 0#4, phase := .idle, done := true, lat := 0
      draws := s.draws + 1, host := rest
      reads := blockReadings "y" (blockCipher Config.cfg dir x s.key) ++ (polls ++ s.reads) } := by
  rw [driveBlock, List.append_assoc, List.append_assoc, List.append_assoc] at hh
  have hload := reaches_ldBlk hr hp x hh
  obtain ⟨polls, hpolls, hrun⟩ := reaches_runCmd
    (s := { s with
      data := x, dataMask := 0b1111#4
      host := [cmdOp (blockCommand dir)] ++ ([.wait, .rd statusIndex "s", .check] ++ (rdBlk "y" ++ rest)) })
    hr hp (fun _ => hkey) (fun _ => rfl) rfl
  rw [complete_blockCommand] at hrun
  have hcheck := (hload.trans hrun).trans (reaches_statusCheck (by exact hr) (by exact rfl) (by exact herr) rfl)
  exact ⟨statusReading _ :: polls, by simpa [statusReading] using hpolls,
    hcheck.trans (reaches_rdBlk (by exact hr) (by exact rfl) "y" rfl)⟩

/-! ## A stream -/

/-- The driver's call so far: CORE idle, without an error and with the call's key loaded, and the call without a failure
(44_host_driver.md R207; log 12). -/
structure InCall (k : Block) (mark : Nat) (s : State) : Prop where
  rst : s.rst = false
  phase : s.phase = .idle
  err : s.err = 0#4
  key : s.key = k
  keyMask : s.keyMask = 0b1111#4
  failure : s.failure = none
  callMark : s.callMark = mark

/-- The driver's operations for some blocks end in the call with the blocks transformed and read back in order: by
induction on the blocks (44_host_driver.md R205, R207). -/
theorem reaches_driveBlocks (dir : Direction) {k : Block} {mark : Nat} (blocks : List Block) {s : State}
    {rest : List HostOp} (hs : InCall k mark s) (hh : s.host = blocks.flatMap (driveBlock dir) ++ rest) :
    ∃ (t : State) (new : List Reading), Reaches s t ∧ InCall k mark t ∧ t.host = rest ∧ t.reads = new ++ s.reads ∧
      outputBytes new = joinBlocks (blocks.map fun x => blockCipher Config.cfg dir x k) := by
  induction blocks generalizing s with
  | nil => exact ⟨s, [], .refl s, hs, hh, rfl, rfl⟩
  | cons x blocks ih =>
    obtain ⟨hr, hp, herr, rfl, hmask, hfailure, hmark⟩ := hs
    rw [List.flatMap_cons, List.append_assoc] at hh
    obtain ⟨polls, hpolls, hblock⟩ := reaches_driveBlock dir x hr hp herr hmask hh
    have hcall : InCall s.key mark { s with
        data := blockCipher Config.cfg dir x s.key, dataMask := 0#4, phase := .idle, done := true, lat := 0
        draws := s.draws + 1, host := blocks.flatMap (driveBlock dir) ++ rest
        reads := blockReadings "y" (blockCipher Config.cfg dir x s.key) ++ (polls ++ s.reads) } :=
      ⟨hr, rfl, herr, rfl, hmask, hfailure, hmark⟩
    obtain ⟨t, new, hreach, ht, hhost, hreads, hbytes⟩ := ih hcall rfl
    refine ⟨t, new ++ (blockReadings "y" (blockCipher Config.cfg dir x s.key) ++ polls), hblock.trans hreach, ht, hhost, ?_,
      ?_⟩
    · simpa using hreads
    · rw [outputBytes_append, outputBytes_append, outputBytes_of_status hpolls, outputBytes_blockReadings, hbytes]
      rfl

/-- ACK clears DONE, ERR and OVF (30_encoding.md R91). -/
theorem reaches_ack {s : State} {rest : List HostOp} (hr : s.rst = false) (hp : s.phase = .idle)
    (hh : s.host = ackOp :: rest) :
    Reaches s { s with done := false, err := 0#4, ovf := false, host := rest } :=
  reaches_of_hostOp hr hp hh (regWrite_status (s := { s with host := rest }) hr _)

/-- The end of a stream, scrubbed or not, reads no output (44_host_driver.md R212). -/
theorem reaches_scrub {s : State} (scrub : Bool) {rest : List HostOp} (hr : s.rst = false) (hp : s.phase = .idle)
    (hh : s.host = (if scrub then runCmd .clear else []) ++ rest) :
    ∃ (t : State) (polls : List Reading), Reaches s t ∧ t.rst = false ∧ t.phase = .idle ∧ t.failure = s.failure ∧
      t.callMark = s.callMark ∧ t.host = rest ∧ t.reads = polls ++ s.reads ∧ ∀ r ∈ polls, r.idx = 2#6 := by
  cases scrub with
  | false => exact ⟨s, [], .refl s, hr, hp, rfl, rfl, hh, rfl, by simp⟩
  | true =>
    obtain ⟨polls, hpolls, hreach⟩ := reaches_runCmd (i := .clear) hr hp (by simp [needsKey]) (by simp [needsData]) hh
    exact ⟨_, polls, hreach, hr, rfl, rfl, rfl, rfl, rfl, hpolls⟩

/-- A stream ends with its blocks transformed under the key, in order (44_host_driver.md R205, R207). -/
theorem reaches_driveStream {s : State} (dir : Direction) (blocks : List Block) (k : Block) (scrub : Bool)
    {rest : List HostOp} (hr : s.rst = false) (hp : s.phase = .idle) (hf : s.failure = none)
    (hh : s.host = driveStream dir blocks k scrub ++ rest) :
    ∃ (t : State) (new : List Reading), Reaches s t ∧ t.rst = false ∧ t.phase = .idle ∧ t.failure = none ∧
      t.callMark = s.callMark ∧ t.host = rest ∧ t.reads = new ++ s.reads ∧
      outputBytes new = joinBlocks (blocks.map fun x => blockCipher Config.cfg dir x k) := by
  rw [driveStream, List.append_assoc, List.append_assoc, List.append_assoc] at hh
  have hload := (reaches_ack hr hp hh).trans (reaches_ldKey (by exact hr) (by exact hp) k rfl)
  have hcall : InCall k s.callMark { s with
      key := k, keyMask := 0b1111#4, done := false, err := 0#4, ovf := false
      host := blocks.flatMap (driveBlock dir) ++ ((if scrub then runCmd .clear else []) ++ rest) } :=
    ⟨hr, hp, rfl, rfl, rfl, hf, rfl⟩
  obtain ⟨u, new, hblocks, hu, huhost, hureads, hbytes⟩ := reaches_driveBlocks dir blocks hcall rfl
  obtain ⟨t, polls, hscrub, hrst, hphase, hfailure, hmark, hhost, hreads, hpolls⟩ :=
    reaches_scrub scrub hu.rst hu.phase huhost
  refine ⟨t, polls ++ new, (hload.trans hblocks).trans hscrub, hrst, hphase, hfailure.trans hu.failure,
    hmark.trans hu.callMark, hhost, ?_, ?_⟩
  · rw [hreads, hureads, List.append_assoc]
  · rw [outputBytes_append, outputBytes_of_status hpolls, List.append_nil, hbytes]

/-! ## A whole call -/

/-- What a call without a failure returns, from the output blocks it has read (44_host_driver.md R204, R207). -/
def callResult (dir : Direction) (bytes : List Byte) : Except DriverFailure (List Byte) :=
  match dir with
  | .encrypt => .ok bytes
  | .decrypt => unpad bytes

/-- The driver's result is that of the values read since the call began (44_host_driver.md R201; log 12). -/
theorem driverResult_of_reads (dir : Direction) {s : State} {new old : List Reading} (hf : s.failure = none)
    (hreads : s.reads = new ++ old) (hmark : s.callMark = old.length) :
    driverResult dir s = callResult dir (outputBytes new) := by
  have hcall : callReads s = new := by
    rw [callReads, hreads, hmark, List.length_append, Nat.add_sub_cancel, List.take_left]
  cases dir <;> simp only [driverResult, hf, hcall, callResult]

/-- The driver refuses a call exactly as transform does, and otherwise drives the blocks that transform works on
(44_host_driver.md R201, R202, R205, R206). -/
theorem driveTransform_cases (c : Cfg) (buffer key : List Byte) (dir : Direction) (scrub : Bool) :
    (∃ e, driveTransform buffer key dir scrub = .error e ∧ transform c buffer key dir = .error e) ∨
    ∃ blocks, driveTransform buffer key dir scrub = .ok (driveStream dir blocks (blockOfBytes key) scrub) ∧
      transform c buffer key dir =
        callResult dir (joinBlocks (blocks.map fun x => blockCipher c dir x (blockOfBytes key))) := by
  obtain ⟨hbadKey, hbadLength⟩ := driverRefusesBadLengths c buffer key dir scrub
  by_cases hkey : key.length = 16
  · have hnot : ¬ key.length ≠ 16 := not_not.mpr hkey
    cases dir with
    | encrypt => exact .inr ⟨blocksOf (pad buffer), if_neg hnot, if_neg hnot⟩
    | decrypt =>
      cases hlen : streamLength buffer with
      | false =>
        obtain ⟨htransform, hdrive⟩ := hbadLength hkey ((streamLength_eq_false_iff buffer).mp hlen)
        exact .inl ⟨_, hdrive, htransform⟩
      | true =>
        exact .inr ⟨blocksOf buffer, (if_neg hnot).trans (if_pos hlen),
          (if_neg hnot).trans (decryptStream_of_streamLength c _ hlen)⟩
  · obtain ⟨htransform, hdrive⟩ := hbadKey hkey
    exact .inl ⟨_, hdrive, htransform⟩

section

variable {s : State} {rest : List HostOp} (hr : s.rst = false) (hp : s.phase = .idle)
include hr hp

theorem reaches_callEnter (refusal : Option DriverFailure) (hh : s.host = .callEnter refusal :: rest) :
    Reaches s { s with host := rest, callMark := s.reads.length, failure := refusal } :=
  reaches_of_hostOp hr hp hh rfl

theorem reaches_callLeave (dir : Direction) (hh : s.host = .callLeave dir :: rest) :
    Reaches s { s with host := rest, result := some (driverResult dir s) } :=
  reaches_of_hostOp hr hp hh rfl

/-- A whole call runs to its end and returns what transform does (44_host_driver.md R201, R207). -/
theorem reaches_driveCall (buffer key : List Byte) (dir : Direction) (scrub : Bool)
    (hh : s.host = driveCall buffer key dir scrub ++ rest) :
    ∃ t, Reaches s t ∧ t.host = rest ∧ t.phase = .idle ∧ t.result = some (transform Config.cfg buffer key dir) := by
  rcases driveTransform_cases Config.cfg buffer key dir scrub with ⟨e, hdrive, htransform⟩ | ⟨blocks, hdrive, htransform⟩
  · rw [driveCall, hdrive] at hh
    have henter := reaches_callEnter hr hp _ hh
    have hleave := henter.trans (reaches_callLeave (by exact hr) (by exact hp) dir rfl)
    exact ⟨_, hleave, rfl, hp, congrArg some htransform.symm⟩
  · rw [driveCall, hdrive, List.append_assoc, List.append_assoc] at hh
    have henter := reaches_callEnter hr hp _ hh
    obtain ⟨t, new, hstream, hrst, hphase, hfailure, hmark, hhost, hreads, hbytes⟩ := reaches_driveStream
      (s := { s with
        host := driveStream dir blocks (blockOfBytes key) scrub ++ ([.callLeave dir] ++ rest)
        callMark := s.reads.length, failure := none })
      dir blocks (blockOfBytes key) scrub hr hp rfl rfl
    refine ⟨_, (henter.trans hstream).trans (reaches_callLeave hrst hphase dir hhost), rfl, hphase, congrArg some ?_⟩
    rw [driverResult_of_reads dir hfailure hreads hmark, hbytes, htransform]

end

/-- Settles O58: a block by `reaches_driveBlock`, a call by `reaches_driveCall`. -/
theorem driverTransformsOneBlock : Obligations.DriverTransformsOneBlock := by
  refine ⟨fun s dir x rest hr hp herr hkey hh => ?_, fun s buffer key dir scrub rest hr hp hh => ?_⟩
  · obtain ⟨polls, _, n, hn⟩ := reaches_driveBlock dir x hr hp herr hkey hh
    refine ⟨n, _, hn, rfl, rfl, rfl, herr, rfl, rfl, rfl, rfl, rfl, ?_⟩
    exact outputBytes_blockReadings "y" (blockCipher Config.cfg dir x s.key)
  · obtain ⟨t, ⟨n, hn⟩, hhost, hphase, hresult⟩ := reaches_driveCall hr hp buffer key dir scrub hh
    exact ⟨n, t, hn, hhost, hphase, hresult⟩

end Sys2Proof.Machine
end
